-- ==== Sys2Proof/Word.lean ====
section
/-! DEFINITION. The word types of the update block (00_scope.md R6, R8): bytes, 32-bit words and
32-bit flash byte addresses. -/

namespace Sys2Proof

/-- One byte of the link, of the buffer or of flash: 8 bits (R6). -/
abbrev Byte := BitVec 8

/-- One 32-bit word of the buffer or of flash (R6, `WORD_BITS = 32`). -/
abbrev Word := BitVec 32

/-- A 32-bit flash byte address (R40, D40). -/
abbrev Addr := BitVec 32

end Sys2Proof
end

