-- ==== Sys2Proof/Config.lean ====
section
/-! DEFINITION. The parameters of the block (00_scope.md R6, R7, R12) and the free values the spec
writes `any` (R9). -/

namespace Sys2Proof

/-- `WORD_BYTES` (R6). -/
def Config.wordBytes : Nat := 4
/-- `BUF_WORDS` (R6). -/
def Config.bufWords : Nat := 64
/-- `BUF_BYTES` (R6). -/
abbrev Config.bufBytes : Nat := 256
/-- `HALF_WORDS` (R6). -/
def Config.halfWords : Nat := 32
/-- `HALF_BYTES` (R6). -/
abbrev Config.halfBytes : Nat := 128
/-- `PAGE_BYTES` (R6, D4). -/
abbrev Config.pageBytes : Nat := 256
/-- `IDLE_DEBOUNCE` (R6). -/
abbrev Config.idleDebounce : Nat := 2
/-- The size of the flash address space in bytes: addresses are 32-bit (R40, R41). -/
abbrev Config.flashSpace : Nat := 4294967296

/-- A range of flash bytes that hold the bootloader's own code (R7, R79, R157). -/
structure CodeRange where
  base : Addr
  size : Nat
  deriving DecidableEq, Repr, Inhabited

/-- The byte at address `a` lies in the range. -/
def CodeRange.holds (r : CodeRange) (a : Nat) : Bool :=
  decide (r.base.toNat ≤ a) && decide (a < r.base.toNat + r.size)

/-- No byte of the range lies in `[lo, hi)`. -/
def CodeRange.clearOf (r : CodeRange) (lo hi : Nat) : Bool :=
  r.size == 0 || decide (r.base.toNat + r.size ≤ lo) || decide (hi ≤ r.base.toNat)

/-- The parameters the spec names and the model takes as an argument (R7); `TIMEOUT_TICKS` is kept
as an argument too, as R6 allows (log entry 5). `bootCode` says where the
bootloader's own code lies, which R7 constrains and gives no name (log entry 4). -/
structure Params where
  activationByte : Byte
  startSentinel : Byte
  cmdRunApp : Byte
  cmdEnterProg : Byte
  cmdReboot : Byte
  appBase : Addr
  appLimit : Addr
  bootBase : Addr
  bootCode : List CodeRange
  spSentinel : Word
  erasedByte : Byte
  reenableAfterAbsent : Bool
  timeoutTicks : Nat
  deriving DecidableEq, Repr, Inhabited

/-- The constraints R7 puts on the arguments. `APP_LIMIT < 2^32` holds by type. No byte of
`[APP_BASE, APP_LIMIT)` holds the bootloader's own code (R7, R79, R157, R291).
`TIMEOUT_TICKS >= 1` is R6's; the upper bound is the 8 bits R33 gives `REMAIN`. -/
def Params.valid (p : Params) : Bool :=
  p.cmdRunApp != p.cmdEnterProg && p.cmdRunApp != p.cmdReboot && p.cmdEnterProg != p.cmdReboot &&
  p.appBase.toNat % Config.pageBytes == 0 && p.appLimit.toNat % Config.pageBytes == 0 &&
  decide (p.appBase.toNat < p.appLimit.toNat) &&
  p.bootBase.toNat % 4 == 0 && decide (p.bootBase.toNat + 8 ≤ Config.flashSpace) &&
  !(decide (p.appBase.toNat ≤ p.bootBase.toNat) && decide (p.bootBase.toNat < p.appLimit.toNat)) &&
  !(decide (p.appBase.toNat ≤ p.bootBase.toNat + 4) &&
    decide (p.bootBase.toNat + 4 < p.appLimit.toNat)) &&
  p.bootCode.all (fun r => r.clearOf p.appBase.toNat p.appLimit.toNat) &&
  decide (1 ≤ p.timeoutTicks) && decide (p.timeoutTicks < 256)

/-- The test instantiation `T0` (R12). R12 names no code range: `[0, APP_BASE)` is DESIGN CHOICE (log
entry 4). -/
def Params.t0 : Params where
  activationByte := 0xA5#8
  startSentinel := 0x5A#8
  cmdRunApp := 0x01#8
  cmdEnterProg := 0x02#8
  cmdReboot := 0x03#8
  appBase := 0x00004000#32
  appLimit := 0x00008000#32
  bootBase := 0x00000000#32
  bootCode := [{ base := 0x00000000#32, size := 0x4000 }]
  spSentinel := 0x20002000#32
  erasedByte := 0xFF#8
  reenableAfterAbsent := false
  timeoutTicks := 5

/-- An arbitrary instance of the parameters: nothing is known of it (log entry 4). -/
opaque Config.rawParams : Params

/-- The parameters of the machine after reset: an arbitrary instance that meets R7's constraints
(log entry 4). -/
def Config.params : Params :=
  if Config.rawParams.valid then Config.rawParams else Params.t0

/-- DESIGN CHOICE (log entry 9): what a flash byte that nothing has written reads as. -/
def Config.unwrittenByte : Byte := 0xFF#8

/-- The free value of byte `k` of the `draw`-th draw: the spec's `BUFB[k] <- any` (R9, R138, R280), or
the byte a read finds at an address `k` past the address space. Nothing is known of it (log entries 8,
10). -/
opaque Config.freeByte (draw k : Nat) : Byte

/-- The free value of the `draw`-th draw of `LATCH`: the spec's `LATCH <- any` (R280); true stands
for `Second`. Nothing is known of it (log entry 8). -/
opaque Config.freeBit (draw : Nat) : Bool

end Sys2Proof
end

