-- ==== Sys2Proof/Syntax.lean ====
section
/-! DEFINITION. The syntax: the enumerations of the state (10_state.md R47), the instructions, one
constructor for each row of spec/opcode_table.json (30_encoding.md R101, R103, R104), the symbols
of the serial link (R90) and the step mnemonics of a run (R101). -/

namespace Sys2Proof

/-- The 22 values of `SEQ` (R22). -/
inductive Seq where
  | aPoll
  | cEnter | cRecv | cDispatch
  | rTeardown | rJump
  | gClear | gArm
  | bTeardown | bJump
  | pCheck | pErase | pWrite | pAdvance | pClear
  | eStop | eReport | eRewind | eClear | eFallback
  | gone | faulted
  deriving DecidableEq, Repr

/-- A half of the buffer or of a page: the values of `LATCH` (R23, R47). -/
inductive Half where
  | first | second
  deriving DecidableEq, Repr

/-- `MODE` (R30). -/
inductive Mode where
  | awaitingActivation | commandAndControl | programmerMode
  deriving DecidableEq, Repr

/-- `CAPSTAT` (R25). -/
inductive CapStat where
  | none | firstHalfReady | secondHalfReady
  deriving DecidableEq, Repr

/-- `FRAME` (R28). -/
inductive FrameState where
  | idle | startDetectedOnce | messageActive
  deriving DecidableEq, Repr

/-- `SUP` (R33). -/
inductive SupState where
  | armed | expired | disarmed
  deriving DecidableEq, Repr

/-- The operand of `start_capture`: always the ReceiveBuffer, "the block has no other buffer" (R130). -/
inductive BufferRef where
  | receiveBuffer
  deriving DecidableEq, Repr

/-- The routes of `RX b`, one for each line of R112. -/
inductive RxRoute where
  /-- `HALTED = 1` or `SEQ` terminal: no effect. -/
  | noEffect
  /-- `RX_EN = 0`: R113. -/
  | off
  /-- R132. -/
  | dmaStore
  /-- R135. -/
  | dmaDrop
  /-- R115. -/
  | activation
  /-- R116. -/
  | frameIdle
  /-- R117. -/
  | frameStart1
  /-- R118. -/
  | frameActive
  /-- R114. -/
  | unheard
  deriving DecidableEq, Repr

/-- One symbol of the serial link: a byte, or one idle frame of silence (R90). -/
inductive LinkSymbol where
  | byte (b : Byte)
  | idle
  deriving DecidableEq, Repr

/-- The formats of the byte stream (R91, R92, R93). -/
inductive Format where
  /-- Activation, unframed. -/
  | a
  /-- Command frame. -/
  | c
  /-- Programmer-mode payload. -/
  | p
  deriving DecidableEq, Repr

/-- The formats of the rows of spec/opcode_table.json (R104). -/
inductive RowFormat where
  /-- A wire row: its bits are read from the link. -/
  | wire (f : Format)
  /-- An event, a handler or a route of `RX`. -/
  | event
  /-- A micro-step of the main context. -/
  | step
  /-- A named operation. -/
  | op
  deriving DecidableEq, Repr

/-- The step mnemonics a run is written in (R101). -/
inductive RunStep where
  | reset
  | rx (b : Byte)
  | idle
  | tick
  | te
  | irqHt
  | irqTc
  | irqTe
  | irqIdle
  | irqTim
  | step
  deriving DecidableEq, Repr

/-- The instructions: one constructor for each row of spec/opcode_table.json, in its order. The
wire command `REBOOT` is `reboot`; the operation `reboot` is `rebootOp`. -/
inductive Instr where
  -- wire commands, formats A, C and P
  | activate
  | actIgnored (b : Byte)
  | runApp
  | enterProg
  | reboot
  | cmdIgnored (c : Byte)
  | emptyFrame
  | imageByte (d : Byte)
  -- events and handlers
  | reset
  | rx (b : Byte)
  | idle
  | tick
  | te
  | irqHt
  | irqTc
  | irqTe
  | irqIdle
  | irqTim
  -- routes of RX
  | rxOff (b : Byte)
  | rxUnheard (b : Byte)
  | rxActivation (b : Byte)
  | rxFrameIdle (b : Byte)
  | rxFrameStart1 (b : Byte)
  | rxFrameActive (b : Byte)
  | rxDmaStore (b : Byte)
  | rxDmaDrop (b : Byte)
  -- sequencer steps
  | stepAPoll
  | stepCEnter
  | stepCRecv
  | stepCDispatch
  | stepRTeardown
  | stepRJump
  | stepGClear
  | stepGArm
  | stepBTeardown
  | stepBJump
  | stepPCheck
  | stepPErase
  | stepPWrite
  | stepPAdvance
  | stepPClear
  | stepEStop
  | stepEReport
  | stepERewind
  | stepEClear
  | stepEFallback
  -- named operations
  | receiveCommand
  | startCapture (dest : BufferRef)
  | stopCapture
  | flashErasePage (a : Addr)
  | flashWriteHalf (a : Addr) (h : Half)
  | commitHalfPage (dest : Addr) (h : Half)
  | disarm
  | expire
  | tryJump (base : Addr)
  | teardownAll
  | rebootOp
  | selfReset
  | warmReset
  deriving DecidableEq, Repr

/-- The format of an instruction's row (R104). -/
def Instr.rowFormat : Instr → RowFormat
  | .activate => .wire .a
  | .actIgnored _ => .wire .a
  | .runApp => .wire .c
  | .enterProg => .wire .c
  | .reboot => .wire .c
  | .cmdIgnored _ => .wire .c
  | .emptyFrame => .wire .c
  | .imageByte _ => .wire .p
  | .reset => .event
  | .rx _ => .event
  | .idle => .event
  | .tick => .event
  | .te => .event
  | .irqHt => .event
  | .irqTc => .event
  | .irqTe => .event
  | .irqIdle => .event
  | .irqTim => .event
  | .rxOff _ => .event
  | .rxUnheard _ => .event
  | .rxActivation _ => .event
  | .rxFrameIdle _ => .event
  | .rxFrameStart1 _ => .event
  | .rxFrameActive _ => .event
  | .rxDmaStore _ => .event
  | .rxDmaDrop _ => .event
  | .stepAPoll => .step
  | .stepCEnter => .step
  | .stepCRecv => .step
  | .stepCDispatch => .step
  | .stepRTeardown => .step
  | .stepRJump => .step
  | .stepGClear => .step
  | .stepGArm => .step
  | .stepBTeardown => .step
  | .stepBJump => .step
  | .stepPCheck => .step
  | .stepPErase => .step
  | .stepPWrite => .step
  | .stepPAdvance => .step
  | .stepPClear => .step
  | .stepEStop => .step
  | .stepEReport => .step
  | .stepERewind => .step
  | .stepEClear => .step
  | .stepEFallback => .step
  | .receiveCommand => .op
  | .startCapture _ => .op
  | .stopCapture => .op
  | .flashErasePage _ => .op
  | .flashWriteHalf _ _ => .op
  | .commitHalfPage _ _ => .op
  | .disarm => .op
  | .expire => .op
  | .tryJump _ => .op
  | .teardownAll => .op
  | .rebootOp => .op
  | .selfReset => .op
  | .warmReset => .op

end Sys2Proof
end

