-- ==== Sys2Proof/Decode.lean ====
section
/-! DEFINITION. Decoding of the byte stream by format (30_encoding.md R91 to R100), rejecting by
name, and the encoder written from the same tables. The rows without a bit pattern (R104) have no
encoding: they are selected by mnemonic and by state in Machine/Fetch.lean (R101, R105). -/

namespace Sys2Proof

/-- Why a symbol sequence is no instruction of its format. -/
inductive DecodeError where
  /-- Formats A and P decode exactly one byte (R91, R93). -/
  | notOneByte
  /-- A command frame ends with two consecutive idle frames (R92); none came. -/
  | unterminated
  /-- A 257th payload byte has no place (R100, R119). -/
  | overflow
  /-- Symbols follow the end of the frame. -/
  | trailing
  deriving DecidableEq, Repr

/-- Format A: the byte is compared with `ACTIVATION_BYTE` (R91). -/
def decodeActivation (p : Params) (b : Byte) : Instr :=
  if b = p.activationByte then .activate else .actIgnored b

/-- The opcode map of format C, compared in the order of R96's table. -/
def decodeOpcode (p : Params) (c : Byte) : Instr :=
  if c = p.cmdRunApp then .runApp
  else if c = p.cmdEnterProg then .enterProg
  else if c = p.cmdReboot then .reboot
  else .cmdIgnored c

/-- The instruction of a frame's payload: its first byte is the opcode (R94), the rest is never
read (R95), and an empty payload is the empty frame (R99). -/
def decodePayload (p : Params) : List Byte → Instr
  | [] => .emptyFrame
  | c :: _ => decodeOpcode p c

/-- What a byte does to the framing state (R116, R117, R118). -/
def nextFrame (p : Params) (f : FrameState) (b : Byte) : FrameState :=
  match f with
  | .idle => if b = p.startSentinel then .startDetectedOnce else .idle
  | .startDetectedOnce => if b = p.startSentinel then .messageActive else .idle
  | .messageActive => .messageActive

/-- The payload of one command frame (R92): noise before the start sequence is not stored, the two
sentinels are not stored, every later byte is payload, and two idle frames with no byte between
them end the frame, whatever the framing state is (R122). -/
def scanFrame (p : Params) :
    FrameState → List Byte → Nat → List LinkSymbol → Except DecodeError (List Byte)
  | _, _, _, [] => .error .unterminated
  | f, payload, idles, .idle :: rest =>
    if idles + 1 = Config.idleDebounce then
      if rest = [] then .ok payload else .error .trailing
    else scanFrame p f payload (idles + 1) rest
  | .messageActive, payload, _, .byte b :: rest =>
    if payload.length < Config.bufBytes then
      scanFrame p .messageActive (payload ++ [b]) 0 rest
    else .error .overflow
  | f, payload, _, .byte b :: rest => scanFrame p (nextFrame p f b) payload 0 rest

/-- The decoder of the link, total on every symbol sequence. -/
def decode (p : Params) (f : Format) (syms : List LinkSymbol) : Except DecodeError Instr :=
  match f, syms with
  | .a, [.byte b] => .ok (decodeActivation p b)
  | .a, _ => .error .notOneByte
  | .p, [.byte b] => .ok (.imageByte b)
  | .p, _ => .error .notOneByte
  | .c, syms =>
    match scanFrame p .idle [] 0 syms with
    | .ok payload => .ok (decodePayload p payload)
    | .error e => .error e

/-- A command frame: two start sentinels, the payload, two idle frames (R92, R102). -/
def frameSymbols (p : Params) (payload : List Byte) : List LinkSymbol :=
  .byte p.startSentinel :: .byte p.startSentinel :: (payload.map .byte ++ [.idle, .idle])

/-- The symbols of an instruction that the spec gives an encoding (R91, R92, R93, R96, R99); `none`
for the rows that have no bit pattern (R104). -/
def encode (p : Params) : Instr → Option (Format × List LinkSymbol)
  | .activate => some (.a, [.byte p.activationByte])
  | .actIgnored b => some (.a, [.byte b])
  | .runApp => some (.c, frameSymbols p [p.cmdRunApp])
  | .enterProg => some (.c, frameSymbols p [p.cmdEnterProg])
  | .reboot => some (.c, frameSymbols p [p.cmdReboot])
  | .cmdIgnored c => some (.c, frameSymbols p [c])
  | .emptyFrame => some (.c, frameSymbols p [])
  | .imageByte d => some (.p, [.byte d])
  | _ => none

/-- Byte `k` of a word whose first byte is its least significant one. -/
def byteOf (w k : Nat) : Byte := BitVec.ofNat 8 (w / 256 ^ k)

/-- The symbols of a table word under `T0` (R12, R104; log entry 17). The opcode table gives a row
its opcode byte only: `ACTIVATION_BYTE` alone stands unframed (R91), any other bytes stand as the
payload of a command frame (R92), and no byte is the empty frame (R99). -/
def tableSymbols (nbits w : Nat) : Option (Format × List LinkSymbol) :=
  if nbits % 8 = 0 then
    if nbits = 8 ∧ byteOf w 0 = Params.t0.activationByte then some (.a, [.byte (byteOf w 0)])
    else some (.c, frameSymbols .t0 ((List.range (nbits / 8)).map (byteOf w)))
  else none

/-- The instruction the decoder reads from a word of `nbits` bits under `T0`, the instantiation the
opcode table gives its numerals in (R12, R104; log entry 17). -/
def decodeTableWord (nbits w : Nat) : Option Instr :=
  match tableSymbols nbits w with
  | some (f, syms) =>
    match decode Params.t0 f syms with
    | .ok i => some i
    | .error _ => none
  | none => none

end Sys2Proof
end

