-- ==== Sys2Proof/Machine/State.lean ====
section
/-! DEFINITION. The state of the update block (10_state.md), as plain data; the reasons a step can
stop; the state after reset (R46). -/

namespace Sys2Proof.Machine

/-- A memory: (address, byte) pairs, addresses strictly rising, no entry equal to what an unlisted
address reads as (`Memory.wf` in Machine/Ops.lean). -/
abbrev Memory := List Host.Cell

/-- A hand-off record: the base, the stack-pointer word and the entry word (R24, R39). -/
structure Handoff where
  base : Addr
  sp : Word
  entry : Word
  deriving DecidableEq, Repr

/-- The model faults of R256, the values of `FAULT` (R38). -/
inductive ModelFault where
  | flashContract | flashRange | rxOverflow
  deriving DecidableEq, Repr

/-- The closed list of causes (R251). -/
inductive Cause where
  | protocolNoise
  | transferFault
  /-- `ImageAbsent`, with the base address that is reported. -/
  | imageAbsent (base : Addr)
  | timingViolation
  | flashContract
  | flashRange
  | rxOverflow
  deriving DecidableEq, Repr

/-- The result of `try_jump` (R185). -/
inductive JumpResult where
  | jumped | notPresent
  deriving DecidableEq, Repr

/-- Why the machine stops with a fault: it never does, so there is no constructor. Every fault of the
spec is a next state: the model faults of R256 are recorded in `FAULT`, and the transfer fault of R253
in `HALTED`. Safe: nothing stops. -/
inductive Fault
  deriving DecidableEq, Repr

/-- Why the machine has no meaning for an instruction. -/
inductive Refusal where
  /-- Raised by an arm of `exec` that has no meaning yet. Safe: nothing is claimed of it. -/
  | notModelled (mnemonic : String)
  /-- Raised by a meaning whose step is not enabled in the state: not a legal step of a run (R101,
  R222, R259; log entry 3). Safe: a run holds only enabled steps. -/
  | notEnabled (mnemonic : String)
  deriving DecidableEq, Repr

/-- The state of the block. Each field names its rule of 10_state.md. -/
structure State where
  /-- MODEL'S OWN: the parameters of R7, an argument of the model that no step writes (log entry 4). -/
  params : Params
  /-- `SEQ` (R22). -/
  seq : Seq
  /-- `LATCH` (R23). -/
  latch : Half
  /-- `MODE` (R30). -/
  mode : Mode
  /-- `core.sp`, as the block last wrote it (R24; log entry 11). -/
  coreSp : Word
  /-- `core.pc`, as the block last wrote it (R24; log entry 11). -/
  corePc : Word
  /-- `HANDOFF` (R24). -/
  handoff : Option Handoff
  /-- `CAPSTAT` (R25). -/
  capstat : CapStat
  /-- `MSGDONE` (R26). -/
  msgDone : Bool
  /-- `IDLECNT` (R27). -/
  idleCnt : Nat
  /-- `FRAME` (R28). -/
  frame : FrameState
  /-- `RXLEN` (R29). -/
  rxLen : Nat
  /-- `CUR_ADDR` (R31). -/
  curAddr : Addr
  /-- `CUR_PAGES` (R32). -/
  curPages : Nat
  /-- `SUP` (R33). -/
  sup : SupState
  /-- `REMAIN` (R33). -/
  remain : Nat
  /-- `RX_EN` (R34). -/
  rxEn : Bool
  /-- `RX_DMA` (R34). -/
  rxDma : Bool
  /-- `IDLE_IE` (R34). -/
  idleIe : Bool
  /-- `IDLE_IF` (R34). -/
  idleIf : Bool
  /-- `DMA_EN` (R35). -/
  dmaEn : Bool
  /-- `DMA_IDX` (R35). -/
  dmaIdx : Nat
  /-- `HTIF` (R35). -/
  htif : Bool
  /-- `TCIF` (R35). -/
  tcif : Bool
  /-- `TEIF` (R35). -/
  teif : Bool
  /-- `TIF` (R36). -/
  tif : Bool
  /-- `HALTED` (R37). -/
  halted : Bool
  /-- `FAULT` (R38). -/
  fault : Option ModelFault
  /-- The stream `REPORT` (R39), oldest first. -/
  reports : List Nat
  /-- The stream `NOTFOUND` (R39), oldest first. -/
  notFounds : List Addr
  /-- The stream `REBOOTED` (R39), oldest first. -/
  reboots : List Handoff
  /-- `BUF`, byte view `BUFB` (R20). -/
  buf : Vector Byte Config.bufBytes
  /-- `FLASH` (R40). -/
  flash : Memory
  /-- MODEL'S OWN: the steps taken next, in order (R10, R101; log entry 1). -/
  schedule : List RunStep
  /-- MODEL'S OWN: how many free values have been drawn (log entry 8). -/
  draws : Nat
  deriving DecidableEq, Repr

/-- The state after reset and startup with given parameters (R46): nothing in flash listed, no step
scheduled; `BUF`, `LATCH`, `core.sp` and `core.pc` at the values of log entries 6, 7 and 11. -/
def State.resetWith (p : Params) : State where
  params := p
  seq := .aPoll
  latch := .first
  mode := .awaitingActivation
  coreSp := 0#32
  corePc := 0#32
  handoff := none
  capstat := .none
  msgDone := false
  idleCnt := 0
  frame := .idle
  rxLen := 0
  curAddr := p.appBase
  curPages := 0
  sup := .armed
  remain := p.timeoutTicks
  rxEn := true
  rxDma := false
  idleIe := false
  idleIf := false
  dmaEn := false
  dmaIdx := 0
  htif := false
  tcif := false
  teif := false
  tif := false
  halted := false
  fault := none
  reports := []
  notFounds := []
  reboots := []
  buf := Vector.replicate Config.bufBytes 0#8
  flash := []
  schedule := []
  draws := 0

/-- The machine right after reset, for an arbitrary valid instance of the parameters (R46). -/
def State.reset : State := State.resetWith Config.params

end Sys2Proof.Machine
end

