-- ==== Sys2Proof/Machine/Ops.lean ====
section
/-! DEFINITION. The named operations over memory, buffer and state that the meanings share: flash
reads and writes (20_memory.md), the buffer, raising a cause (60_exceptions.md R251, R256), the
capture, flash, supervisor, hand-off and reset operations (42 to 45, 70). -/

namespace Sys2Proof.Machine

/-- The outcome type of a step. -/
abbrev Result := Host.Outcome State Fault Refusal

/-! ### Flash -/

/-- The canonical form of a memory: addresses strictly rising and below the size of the address
space, no entry equal to what an unlisted address reads as. -/
def Memory.wfFrom : Nat → Memory → Bool
  | _, [] => true
  | lo, (a, b) :: rest =>
    decide (lo ≤ a) && decide (a < Config.flashSpace) && b != Config.unwrittenByte &&
      Memory.wfFrom (a + 1) rest

/-- The memory is in canonical form. -/
def Memory.wf (m : Memory) : Bool := Memory.wfFrom 0 m

/-- The byte at an address; an unlisted address reads as `Config.unwrittenByte` (log entry 9). -/
def Memory.read : Memory → Nat → Byte
  | [], _ => Config.unwrittenByte
  | (k, v) :: rest, a => if k = a then v else Memory.read rest a

/-- Write one byte, keeping the canonical form. -/
def Memory.write : Memory → Nat → Byte → Memory
  | [], a, b => if b = Config.unwrittenByte then [] else [(a, b)]
  | (k, v) :: rest, a, b =>
    if k < a then (k, v) :: Memory.write rest a b
    else
      let tail := if k = a then rest else (k, v) :: rest
      if b = Config.unwrittenByte then tail else (a, b) :: tail

/-- Write consecutive bytes from an address upward. -/
def Memory.writeBytes : Memory → Nat → List Byte → Memory
  | m, _, [] => m
  | m, a, b :: bs => Memory.writeBytes (Memory.write m a b) (a + 1) bs

/-- Four bytes as one little-endian word, the first in bits 7 to 0 (R60, R61). -/
def littleEndian (b0 b1 b2 b3 : Byte) : Word := b3 ++ b2 ++ b1 ++ b0

/-- The 32-bit word at an address (R61). -/
def Memory.word (m : Memory) (a : Nat) : Word :=
  littleEndian (m.read a) (m.read (a + 1)) (m.read (a + 2)) (m.read (a + 3))

/-- `MemRead(addr, 1)` (R61). A byte past the address space is a free value (log entry 10). -/
def memRead1 (s : State) (a : Nat) : Byte :=
  if a < Config.flashSpace then s.flash.read a else Config.freeByte s.draws a

/-- `MemRead(addr, 4)` (R61). -/
def memRead4 (s : State) (a : Nat) : Word :=
  littleEndian (memRead1 s a) (memRead1 s (a + 1)) (memRead1 s (a + 2)) (memRead1 s (a + 3))

/-- What a `MemRead(addr, 4)` leaves: the state as it is, or the draw of a free value counted (log
entry 10). -/
def afterRead (a : Nat) (s : State) : State :=
  if a + 4 ≤ Config.flashSpace then s else { s with draws := s.draws + 1 }

/-! ### The buffer -/

/-- `BUFB[k]` (R20). -/
def State.bufByte (s : State) (k : Nat) : Byte := (s.buf[k]?).getD 0#8

/-- `BUFB[k] <- b`, for `k < 256` (R20). -/
def State.setBufByte (s : State) (k : Nat) (b : Byte) : State :=
  { s with buf := s.buf.setIfInBounds k b }

/-- `for k in 0..255: BUFB[k] <- 0x00` (R208, R220). -/
def clearBuffer (s : State) : State :=
  { s with buf := Vector.replicate Config.bufBytes 0#8 }

/-- The 256 free bytes of one draw (log entry 8). -/
def freeBytes (draw : Nat) : Vector Byte Config.bufBytes :=
  Vector.ofFn (fun k => Config.freeByte draw k.val)

/-- `for k in 0..255: BUFB[k] <- any`: a fresh draw of 256 free values (R138, R280; log entry 8). -/
def drawBuffer (s : State) : State :=
  { s with buf := freeBytes s.draws, draws := s.draws + 1 }

/-! ### Raising a cause -/

/-- `raise <Cause>(info)`: what R251 records for each cause, and nothing else (R9, R256). -/
def raise (c : Cause) (s : State) : State :=
  match c with
  | .protocolNoise => s
  | .transferFault => { s with halted := true }
  | .imageAbsent base => { s with notFounds := s.notFounds ++ [base] }
  | .timingViolation => s
  | .flashContract => { s with fault := some .flashContract, seq := .faulted }
  | .flashRange => { s with fault := some .flashRange, seq := .faulted }
  | .rxOverflow => { s with fault := some .rxOverflow, seq := .faulted }

/-- `require c else raise F`: if `c` is false the step takes the outcome of `F` and writes nothing
else (R9); `s` is the state before the step. -/
def orRaise (s : State) : Except Cause State → State
  | .ok t => t
  | .error c => raise c s

/-! ### Flash engine (43_flash_engine.md) -/

/-- The range test of R68: `n` bytes at `a` lie wholly inside `[APP_BASE, APP_LIMIT)`. -/
def inAppRegion (p : Params) (a n : Nat) : Bool :=
  decide (p.appBase.toNat ≤ a) && decide (a + n ≤ p.appLimit.toNat)

/-- `FlashErasePage(a)` (R151). -/
def flashErasePage (a : Addr) (s : State) : Except Cause State :=
  if a.toNat % Config.pageBytes ≠ 0 then .error .flashContract
  else if !inAppRegion s.params a.toNat Config.pageBytes then .error .flashRange
  else .ok { s with
    flash := s.flash.writeBytes a.toNat (List.replicate Config.pageBytes s.params.erasedByte) }

/-- The offset of a half in the buffer and in its page (R152, R153). -/
def halfOffset : Half → Nat
  | .first => 0
  | .second => Config.halfBytes

/-- The 128 source bytes of a burst: `BUFB[off .. off + 127]` (R152). -/
def halfBytesOf (s : State) (h : Half) : List Byte :=
  (s.buf.toList.drop (halfOffset h)).take Config.halfBytes

/-- `FlashWriteHalf(a, h)` (R152); what stood in the target bytes is not consulted (log entry 29). -/
def flashWriteHalf (a : Addr) (h : Half) (s : State) : Except Cause State :=
  if a.toNat % Config.halfBytes ≠ 0 then .error .flashContract
  else if !inAppRegion s.params a.toNat Config.halfBytes then .error .flashRange
  else .ok { s with flash := s.flash.writeBytes a.toNat (halfBytesOf s h) }

/-- Where a half may be committed: First at a page base, Second half a page into it (R66, R153). -/
def halfAligned (a : Addr) (h : Half) : Bool := a.toNat % Config.pageBytes == halfOffset h

/-- `commit_half_page(dest, h)` (R153). -/
def commitHalfPage (dest : Addr) (h : Half) (s : State) : Except Cause State :=
  if !halfAligned dest h then .error .flashContract
  else
    match h with
    | .first =>
      match flashErasePage dest s with
      | .ok t => flashWriteHalf dest .first t
      | .error c => .error c
    | .second => flashWriteHalf dest .second s

/-! ### Supervisor (44_timeout_supervisor.md) -/

/-- `disarm()` (R175). -/
def disarm (s : State) : State :=
  if s.sup = .armed then { s with sup := .disarmed, tif := false } else s

/-! ### Page capture (42_page_capture.md) -/

/-- `start_capture(dest)` (R130). -/
def startCapture (_dest : BufferRef) (s : State) : State :=
  { s with
    htif := false, tcif := false, teif := false
    capstat := .none
    dmaIdx := 0
    rxDma := true
    dmaEn := true }

/-- `stop_capture()` (R131). -/
def stopCapture (s : State) : State :=
  { s with dmaEn := false, htif := false, tcif := false, teif := false, rxDma := false }

/-! ### Hand-off (45_handoff.md) -/

/-- `try_jump(base)` (R185 to R188). The caller sets `SEQ` from the result. -/
def tryJump (base : Addr) (s : State) : JumpResult × State :=
  let w0 := memRead4 s base.toNat
  let s1 := afterRead base.toNat s
  if w0 ≠ s.params.spSentinel then (.notPresent, raise (.imageAbsent base) s1)
  else
    let entry := memRead4 s1 (base.toNat + 4)
    (.jumped, { afterRead (base.toNat + 4) s1 with
      coreSp := w0, corePc := entry, handoff := some { base := base, sp := w0, entry := entry } })

/-- `teardown_all()` (R190): capture pipeline, serial receiver and its idle interrupt, timer. -/
def teardownAll (s : State) : State :=
  disarm { s with
    dmaEn := false, htif := false, tcif := false, teif := false, rxDma := false
    idleIe := false, idleIf := false, rxEn := false }

/-- `expire()` (R174, R179): de-initialise the supervisor, then hand off. -/
def expire (s : State) : State :=
  match tryJump s.params.appBase { s with sup := .expired, tif := false } with
  | (.jumped, t) => { t with seq := .gone }
  | (.notPresent, t) => t

/-! ### Reset (70_reset_and_hazards.md) -/

/-- `RESET` (R280), and `warm_reset()` (R283): every element of R46 at its reset value, `BUF` and
`LATCH` drawn free, `FLASH` and the output streams kept. -/
def resetBlock (s : State) : State :=
  { State.resetWith s.params with
    buf := freeBytes s.draws
    latch := if Config.freeBit s.draws then .second else .first
    draws := s.draws + 1
    coreSp := s.coreSp
    corePc := s.corePc
    reports := s.reports
    notFounds := s.notFounds
    reboots := s.reboots
    flash := s.flash
    schedule := s.schedule }

/-- `reboot()` (R191): the vector lookup at `BOOT_BASE`, without a presence check, then
`warm_reset()`. -/
def reboot (s : State) : State :=
  let sp := memRead4 s s.params.bootBase.toNat
  let s1 := afterRead s.params.bootBase.toNat s
  let entry := memRead4 s1 (s.params.bootBase.toNat + 4)
  resetBlock { afterRead (s.params.bootBase.toNat + 4) s1 with
    coreSp := sp, corePc := entry
    reboots := s.reboots ++ [{ base := s.params.bootBase, sp := sp, entry := entry }] }

/-! ### Outcomes -/

/-- A step that is enabled takes its next state; one that is not is no step (R101, R259). -/
def guarded (mnemonic : String) (enabled : Bool) (t : State) : Result :=
  if enabled then .next t else .refused (.notEnabled mnemonic)

end Sys2Proof.Machine
end

