-- ==== Sys2Proof/Machine/Flags.lean ====
section
/-! DEFINITION. The flag computations: which step is enabled (60_exceptions.md R257 to R259,
46_session_controller.md R222), what the DMA position does to the transfer flags (42_page_capture.md
R133, R134), what an idle detection does to the debounce flags (41_serial_frame_receiver.md R122). -/

namespace Sys2Proof.Machine

/-- `SEQ` in {GONE, FAULTED} (R193, R256). -/
def seqTerminal (q : Seq) : Bool := q == .gone || q == .faulted

/-- `HALTED = 1` or `SEQ` in {GONE, FAULTED}: no step but `RESET` changes the block (R37, R193, R256). -/
def State.frozen (s : State) : Bool := s.halted || seqTerminal s.seq

/-- A `STEP` rule is enabled when `SEQ` has its value and `HALTED = 0` (46_session_controller.md). -/
def stepEnabled (q : Seq) (s : State) : Bool := s.seq == q && !s.halted

/-- `IRQ_HT` is enabled (R136). -/
def irqHtEnabled (s : State) : Bool := s.htif && s.dmaEn && !s.frozen

/-- `IRQ_TC` is enabled (R137). -/
def irqTcEnabled (s : State) : Bool := s.tcif && s.dmaEn && !s.frozen

/-- `IRQ_TE` is enabled (R139). -/
def irqTeEnabled (s : State) : Bool := s.teif && s.dmaEn && !s.frozen

/-- `IRQ_IDLE` is enabled (R122; R257 adds `RX_EN`, log entry 13). -/
def irqIdleEnabled (s : State) : Bool := s.idleIf && s.idleIe && !s.frozen

/-- `IRQ_TIM` is enabled (R173). -/
def irqTimEnabled (s : State) : Bool := s.tif && s.sup == .armed && !s.frozen

/-- `IDLE` latches its flag (R121). -/
def idleLatches (s : State) : Bool := !s.frozen && s.rxEn && s.idleIe

/-- `TICK` latches its flag (R172). -/
def tickLatches (s : State) : Bool := !s.frozen && s.sup == .armed

/-- `TE` has effect (R138). -/
def teActs (s : State) : Bool := s.dmaEn && !s.frozen

/-- `HTIF` after a DMA store that leaves the position at `idx` (R133). -/
def htifAfter (old : Bool) (idx : Nat) : Bool := old || idx == Config.halfBytes

/-- `TCIF` after a DMA store that leaves the position at `idx` (R134). -/
def tcifAfter (old : Bool) (idx : Nat) : Bool := old || idx == Config.bufBytes

/-- `MSGDONE` after an idle handler that leaves the count at `n` (R122). -/
def msgDoneAfter (old : Bool) (n : Nat) : Bool := old || n == Config.idleDebounce

/-- `IDLE_IE` after an idle handler that leaves the count at `n` (R122). -/
def idleIeAfter (old : Bool) (n : Nat) : Bool := old && n != Config.idleDebounce

end Sys2Proof.Machine
end

