-- ==== Sys2Proof/Machine/Operands.lean ====
section
/-! DEFINITION. The operand forms: how a received byte is routed (41_serial_frame_receiver.md R112)
and stored (20_memory.md R62, R63), the word view of the buffer (R60), and the opcode a dispatch
reads (30_encoding.md R94). -/

namespace Sys2Proof.Machine

/-- `BUF[i]`, `i < 64`: the little-endian word of four buffer bytes (R20, R60). -/
def State.bufWord (s : State) (i : Nat) : Word :=
  littleEndian (s.bufByte (4 * i)) (s.bufByte (4 * i + 1)) (s.bufByte (4 * i + 2))
    (s.bufByte (4 * i + 3))

/-- The opcode of a command frame: `BUFB[0]` (R94). -/
def State.opcode (s : State) : Byte := s.bufByte 0

/-- The result of `receive_command`: the payload bytes captured (R110). -/
def State.received (s : State) : List Byte := s.buf.toList.take s.rxLen

/-- The instruction the captured frame decodes to (R94, R96, R99). -/
def State.frameInstr (s : State) : Instr := decodePayload s.params s.received

/-- How `RX b` is routed by the state it meets, first matching line (R112). -/
def rxRoute (s : State) : RxRoute :=
  if s.frozen then .noEffect
  else if !s.rxEn then .off
  else if s.rxDma then
    if s.dmaEn && decide (s.dmaIdx < Config.bufBytes) then .dmaStore else .dmaDrop
  else if s.seq == .aPoll then .activation
  else if s.seq == .cRecv && !s.msgDone then
    match s.frame with
    | .idle => .frameIdle
    | .startDetectedOnce => .frameStart1
    | .messageActive => .frameActive
  else .unheard

/-- The activation compare (R115). -/
def rxActivation (b : Byte) (s : State) : State :=
  let s1 := { s with idleCnt := 0 }
  if b = s.params.activationByte then
    { disarm s1 with mode := .commandAndControl, seq := .cEnter }
  else s1

/-- A byte before the start sequence or between its two sentinels (R116, R117). -/
def rxFraming (b : Byte) (s : State) : State :=
  { s with idleCnt := 0, frame := nextFrame s.params s.frame b }

/-- The polled store at the effective address `RXLEN`, post-incremented (R63, R118), or the overflow
fault, which writes nothing else (R119; log entry 12). -/
def rxPolledStore (b : Byte) (s : State) : State :=
  if s.rxLen < Config.bufBytes then
    { s.setBufByte s.rxLen b with idleCnt := 0, rxLen := s.rxLen + 1 }
  else raise .rxOverflow s

/-- The DMA store at the effective address `DMA_IDX` (R62, R132 to R134). -/
def rxDmaStore (b : Byte) (s : State) : State :=
  { s.setBufByte s.dmaIdx b with
    idleCnt := 0
    dmaIdx := s.dmaIdx + 1
    htif := htifAfter s.htif (s.dmaIdx + 1)
    tcif := tcifAfter s.tcif (s.dmaIdx + 1) }

/-- A byte that meets an enabled receiver and is lost (R114, R135, R120). -/
def rxLost (s : State) : State := { s with idleCnt := 0 }

/-- What `RX b` does on each of its routes (R112 to R120, R132, R135). -/
def rxEffect (r : RxRoute) (b : Byte) (s : State) : State :=
  match r with
  | .noEffect => s
  | .off => s
  | .dmaStore => rxDmaStore b s
  | .dmaDrop => rxLost s
  | .activation => rxActivation b s
  | .frameIdle => rxFraming b s
  | .frameStart1 => rxFraming b s
  | .frameActive => rxPolledStore b s
  | .unheard => rxLost s

/-- Where the dispatch of a received frame sends `SEQ` (R205). -/
def dispatchTarget (s : State) : Seq :=
  if s.rxLen = 0 then .cEnter
  else if s.opcode = s.params.cmdRunApp then .rTeardown
  else if s.opcode = s.params.cmdEnterProg then .gClear
  else if s.opcode = s.params.cmdReboot then .bTeardown
  else .cEnter

end Sys2Proof.Machine
end

