-- ==== Sys2Proof/Machine/Events.lean ====
section
/-! DEFINITION. The events of the environment (00_scope.md R10, 30_encoding.md R101): always
enabled, with or without effect. -/

namespace Sys2Proof.Machine

/-- RESET (R280). -/
def execReset (s : State) : Result := .next (resetBlock s)

/-- RX b (R112). -/
def execRx (b : Byte) (s : State) : Result := .next (rxEffect (rxRoute s) b s)

/-- IDLE (R121). -/
def execIdle (s : State) : Result :=
  .next (if idleLatches s then { s with idleIf := true } else s)

/-- TICK (R172). -/
def execTick (s : State) : Result :=
  .next (if tickLatches s then { s with tif := true } else s)

/-- TE (R138). -/
def execTe (s : State) : Result :=
  .next (if teActs s then { drawBuffer s with teif := true } else s)

end Sys2Proof.Machine
end

