-- ==== Sys2Proof/Machine/Handlers.lean ====
section
/-! DEFINITION. The interrupt handlers (60_exceptions.md R257 to R263): one atomic step each, which
saves and restores nothing (R261, R262). -/

namespace Sys2Proof.Machine

/-- The timer handler's work (R173). -/
def timerTick (s : State) : State :=
  let s1 := { s with tif := false, remain := s.remain - 1 }
  if s1.remain = 0 then expire s1 else s1

/-- IRQ_HT (R136). -/
def execIrqHt (s : State) : Result :=
  guarded "IRQ_HT" (irqHtEnabled s) { s with htif := false, capstat := .firstHalfReady }

/-- IRQ_TC (R137): `RX_EN <- 0`, the re-arm and `RX_EN <- 1` are one atomic step. -/
def execIrqTc (s : State) : Result :=
  guarded "IRQ_TC" (irqTcEnabled s)
    { s with tcif := false, capstat := .secondHalfReady, dmaIdx := 0, rxEn := true }

/-- IRQ_TE (R139, R253, R264). -/
def execIrqTe (s : State) : Result :=
  guarded "IRQ_TE" (irqTeEnabled s) (raise .transferFault s)

/-- IRQ_IDLE (R122). -/
def execIrqIdle (s : State) : Result :=
  guarded "IRQ_IDLE" (irqIdleEnabled s)
    { s with
      idleIf := false
      idleCnt := s.idleCnt + 1
      msgDone := msgDoneAfter s.msgDone (s.idleCnt + 1)
      idleIe := idleIeAfter s.idleIe (s.idleCnt + 1) }

/-- IRQ_TIM (R173, R263). -/
def execIrqTim (s : State) : Result := guarded "IRQ_TIM" (irqTimEnabled s) (timerTick s)

end Sys2Proof.Machine
end

