-- ==== Sys2Proof/Machine/Session.lean ====
section
/-! DEFINITION. The micro-steps of the main context, one for each value of `SEQ` that has a `STEP`
rule (46_session_controller.md; 41_serial_frame_receiver.md R111, R123). -/

namespace Sys2Proof.Machine

/-- The entry of `receive_command` (R111). -/
def enterReceive (s : State) : State :=
  { s with
    frame := .idle
    idleCnt := 0
    msgDone := false
    rxLen := 0
    idleIf := false
    idleIe := true
    seq := .cRecv }

/-- STEP at A_POLL (R201). -/
def execStepAPoll (s : State) : Result := guarded "STEP.A_POLL" (stepEnabled .aPoll s) s

/-- STEP at C_ENTER (R111, R203). -/
def execStepCEnter (s : State) : Result :=
  guarded "STEP.C_ENTER" (stepEnabled .cEnter s) (enterReceive s)

/-- STEP at C_RECV (R123, R204). -/
def execStepCRecv (s : State) : Result :=
  guarded "STEP.C_RECV" (stepEnabled .cRecv s)
    (if s.msgDone then { s with seq := .cDispatch } else s)

/-- STEP at C_DISPATCH (R205). -/
def execStepCDispatch (s : State) : Result :=
  guarded "STEP.C_DISPATCH" (stepEnabled .cDispatch s) { s with seq := dispatchTarget s }

/-- STEP at R_TEARDOWN (R206). -/
def execStepRTeardown (s : State) : Result :=
  guarded "STEP.R_TEARDOWN" (stepEnabled .rTeardown s) { teardownAll s with seq := .rJump }

/-- What `R_JUMP` does with the result of `try_jump` (R207). -/
def runAppJump (s : State) : State :=
  match tryJump s.params.appBase s with
  | (.jumped, t) => { t with seq := .gone }
  | (.notPresent, t) =>
    { t with
      rxEn := if s.params.reenableAfterAbsent then true else t.rxEn
      seq := .cEnter }

/-- STEP at R_JUMP (R207). -/
def execStepRJump (s : State) : Result :=
  guarded "STEP.R_JUMP" (stepEnabled .rJump s) (runAppJump s)

/-- STEP at G_CLEAR (R208). -/
def execStepGClear (s : State) : Result :=
  guarded "STEP.G_CLEAR" (stepEnabled .gClear s) { clearBuffer s with seq := .gArm }

/-- The arming of a session (R209). -/
def armSession (s : State) : State :=
  let s1 := disarm s
  let s2 := { s1 with
    curAddr := s1.params.appBase
    curPages := 0
    idleCnt := 0, msgDone := false, idleIf := false }
  { startCapture .receiveBuffer s2 with
    idleIe := true
    mode := .programmerMode
    seq := .pCheck }

/-- STEP at G_ARM (R209). -/
def execStepGArm (s : State) : Result :=
  guarded "STEP.G_ARM" (stepEnabled .gArm s) (armSession s)

/-- STEP at B_TEARDOWN (R210). -/
def execStepBTeardown (s : State) : Result :=
  guarded "STEP.B_TEARDOWN" (stepEnabled .bTeardown s) { teardownAll s with seq := .bJump }

/-- STEP at B_JUMP (R211). -/
def execStepBJump (s : State) : Result :=
  guarded "STEP.B_JUMP" (stepEnabled .bJump s) (reboot s)

/-- The poll of the programmer loop (R212). -/
def pollCapture (s : State) : State :=
  if s.msgDone then { s with seq := .eStop }
  else
    match s.capstat with
    | .firstHalfReady => { s with latch := .first, seq := .pErase }
    | .secondHalfReady => { s with latch := .second, seq := .pWrite }
    | .none => s

/-- STEP at P_CHECK (R212). -/
def execStepPCheck (s : State) : Result :=
  guarded "STEP.P_CHECK" (stepEnabled .pCheck s) (pollCapture s)

/-- The erase of the page at the cursor (R213). -/
def eraseAtCursor (s : State) : State :=
  orRaise s
    (if s.curAddr.toNat % Config.pageBytes ≠ 0 then .error .flashContract
     else
       match flashErasePage s.curAddr s with
       | .ok t => .ok { t with seq := .pWrite }
       | .error c => .error c)

/-- STEP at P_ERASE (R213). -/
def execStepPErase (s : State) : Result :=
  guarded "STEP.P_ERASE" (stepEnabled .pErase s) (eraseAtCursor s)

/-- The burst of the latched half at the cursor (R214). -/
def writeAtCursor (s : State) : State :=
  orRaise s
    (if !halfAligned s.curAddr s.latch then .error .flashContract
     else
       match flashWriteHalf s.curAddr s.latch s with
       | .ok t => .ok { t with seq := .pAdvance }
       | .error c => .error c)

/-- STEP at P_WRITE (R214). -/
def execStepPWrite (s : State) : Result :=
  guarded "STEP.P_WRITE" (stepEnabled .pWrite s) (writeAtCursor s)

/-- The advance of the cursor (R215). -/
def advanceCursor (s : State) : State :=
  { s with
    curAddr := s.curAddr + BitVec.ofNat 32 Config.halfBytes
    curPages := if s.latch = .second then s.curPages + 1 else s.curPages
    seq := .pClear }

/-- STEP at P_ADVANCE (R215). -/
def execStepPAdvance (s : State) : Result :=
  guarded "STEP.P_ADVANCE" (stepEnabled .pAdvance s) (advanceCursor s)

/-- STEP at P_CLEAR (R216). -/
def execStepPClear (s : State) : Result :=
  guarded "STEP.P_CLEAR" (stepEnabled .pClear s) { s with capstat := .none, seq := .pCheck }

/-- STEP at E_STOP (R217). -/
def execStepEStop (s : State) : Result :=
  guarded "STEP.E_STOP" (stepEnabled .eStop s)
    { stopCapture s with idleIe := false, idleIf := false, seq := .eReport }

/-- STEP at E_REPORT (R218). -/
def execStepEReport (s : State) : Result :=
  guarded "STEP.E_REPORT" (stepEnabled .eReport s)
    { s with reports := s.reports ++ [s.curPages], curPages := 0, seq := .eRewind }

/-- STEP at E_REWIND (R219). -/
def execStepERewind (s : State) : Result :=
  guarded "STEP.E_REWIND" (stepEnabled .eRewind s)
    { s with curAddr := s.params.appBase, seq := .eClear }

/-- STEP at E_CLEAR (R220). -/
def execStepEClear (s : State) : Result :=
  guarded "STEP.E_CLEAR" (stepEnabled .eClear s)
    { clearBuffer s with
      capstat := .none, msgDone := false, idleCnt := 0, dmaIdx := 0, seq := .eFallback }

/-- STEP at E_FALLBACK (R221). -/
def execStepEFallback (s : State) : Result :=
  guarded "STEP.E_FALLBACK" (stepEnabled .eFallback s)
    { s with mode := .commandAndControl, seq := .cEnter }

end Sys2Proof.Machine
end

