-- ==== Sys2Proof/Machine/Operations.lean ====
section
/-! DEFINITION. The named operations as rows of their own (30_encoding.md R103). Each is the
operation applied to a state; the environment never invokes one (R103), so no step of a schedule
selects one (log entry 16). -/

namespace Sys2Proof.Machine

/-- One step of the run while `receive_command` holds the main context (R110): the events, the
handlers, and the poll of R123. -/
def spanStep (e : RunStep) (s : State) : Result :=
  match e with
  | .reset => execReset s
  | .rx b => execRx b s
  | .idle => execIdle s
  | .tick => execTick s
  | .te => execTe s
  | .irqHt => execIrqHt s
  | .irqTc => execIrqTc s
  | .irqTe => execIrqTe s
  | .irqIdle => execIrqIdle s
  | .irqTim => execIrqTim s
  | .step => execStepCRecv s

/-- The main context is inside `receive_command` and not frozen (R110). -/
def inReceive (s : State) : Bool := stepEnabled .cRecv s

/-- The span of `receive_command` after its entry (R110): the scheduled steps are taken while the
main context is inside it; when none is left, the main context polls once (log entries 2, 15). -/
def receiveSpan : List RunStep → State → Result
  | [], s => if inReceive s then execStepCRecv s else .next s
  | e :: rest, s =>
    if inReceive s then
      match spanStep e { s with schedule := rest } with
      | .next t => receiveSpan rest t
      | .fault f => .fault f
      | .refused r => .refused r
    else .next s

/-- receive_command (R110): the entry of R111, then the span up to the return of R123. It is
invoked where the span begins, at C_ENTER. -/
def execReceiveCommand (s : State) : Result :=
  if stepEnabled .cEnter s then receiveSpan s.schedule (enterReceive s)
  else .refused (.notEnabled "receive_command")

/-- start_capture (R130). -/
def execStartCapture (dest : BufferRef) (s : State) : Result := .next (startCapture dest s)

/-- stop_capture (R131). -/
def execStopCapture (s : State) : Result := .next (stopCapture s)

/-- flash_erase_page (R151, R156). -/
def execFlashErasePage (a : Addr) (s : State) : Result := .next (orRaise s (flashErasePage a s))

/-- flash_write_half (R152, R156). -/
def execFlashWriteHalf (a : Addr) (h : Half) (s : State) : Result :=
  .next (orRaise s (flashWriteHalf a h s))

/-- commit_half_page (R153, R155, R156). -/
def execCommitHalfPage (dest : Addr) (h : Half) (s : State) : Result :=
  .next (orRaise s (commitHalfPage dest h s))

/-- disarm (R175). -/
def execDisarm (s : State) : Result := .next (disarm s)

/-- expire (R174, R179). -/
def execExpire (s : State) : Result := .next (expire s)

/-- try_jump (R185): its effect on the state; its result is `tryJump`'s (log entry 25). -/
def execTryJump (base : Addr) (s : State) : Result := .next (tryJump base s).2

/-- teardown_all (R190). -/
def execTeardownAll (s : State) : Result := .next (teardownAll s)

/-- reboot, the operation (R191). -/
def execRebootOp (s : State) : Result := .next (reboot s)

/-- self_reset (R192): `reboot()` without the preceding `teardown_all`, which `reboot` itself does
not make. -/
def execSelfReset (s : State) : Result := .next (reboot s)

/-- warm_reset (R283). -/
def execWarmReset (s : State) : Result := .next (resetBlock s)

end Sys2Proof.Machine
end

