-- ==== Sys2Proof/Machine/Routes.lean ====
section
/-! DEFINITION. The routes of `RX b` as rows of their own (30_encoding.md R104): each is the step
`RX b` in the states that R112 routes so. -/

namespace Sys2Proof.Machine

/-- `RX b` in a state that routes it by `r` (R112). -/
def rxVia (mnemonic : String) (r : RxRoute) (b : Byte) (s : State) : Result :=
  guarded mnemonic (rxRoute s == r) (rxEffect r b s)

/-- RX.off (R113). -/
def execRxOff (b : Byte) (s : State) : Result := rxVia "RX.off" .off b s

/-- RX.unheard (R114). -/
def execRxUnheard (b : Byte) (s : State) : Result := rxVia "RX.unheard" .unheard b s

/-- RX.activation (R115). -/
def execRxActivation (b : Byte) (s : State) : Result := rxVia "RX.activation" .activation b s

/-- RX.frame_idle (R116). -/
def execRxFrameIdle (b : Byte) (s : State) : Result := rxVia "RX.frame_idle" .frameIdle b s

/-- RX.frame_start1 (R117). -/
def execRxFrameStart1 (b : Byte) (s : State) : Result := rxVia "RX.frame_start1" .frameStart1 b s

/-- RX.frame_active (R118, R119). -/
def execRxFrameActive (b : Byte) (s : State) : Result := rxVia "RX.frame_active" .frameActive b s

/-- RX.dma_store (R132). -/
def execRxDmaStore (b : Byte) (s : State) : Result := rxVia "RX.dma_store" .dmaStore b s

/-- RX.dma_drop (R135). -/
def execRxDmaDrop (b : Byte) (s : State) : Result := rxVia "RX.dma_drop" .dmaDrop b s

end Sys2Proof.Machine
end

