-- ==== Sys2Proof/Machine/Wire.lean ====
section
/-! DEFINITION. The wire rows of the opcode table: format A (30_encoding.md R91), format C (R92,
R96, R97, R99) and format P (R93). A format A or P row is the received byte in the states that
decode the format (R105); a format C row is the dispatch of a captured frame that decodes to it
(46_session_controller.md R205). Log entry 14. -/

namespace Sys2Proof.Machine

/-- Format A applies: `MODE = AwaitingActivation` and the byte is compared (R91, R105). -/
def formatA (s : State) : Bool := s.mode == .awaitingActivation && rxRoute s == .activation

/-- Format P applies: `MODE = ProgrammerMode` and the DMA takes the byte (R93, R105, R132). -/
def formatP (s : State) : Bool := s.mode == .programmerMode && rxRoute s == .dmaStore

/-- A captured format C frame is dispatched (R92, R105, R205). -/
def formatC (s : State) : Bool := s.mode == .commandAndControl && stepEnabled .cDispatch s

/-- The dispatch of a frame that decodes to `i` (R205): it writes `SEQ` only. -/
def dispatchAs (mnemonic : String) (i : Instr) (target : Seq) (s : State) : Result :=
  guarded mnemonic (formatC s && s.frameInstr == i) { s with seq := target }

/-- ACTIVATE (R115). -/
def execActivate (s : State) : Result :=
  guarded "ACTIVATE" (formatA s) (rxActivation s.params.activationByte s)

/-- ACT_IGNORED: any other byte in format A (R91, R115). -/
def execActIgnored (b : Byte) (s : State) : Result :=
  guarded "ACT_IGNORED" (formatA s && b != s.params.activationByte) (rxActivation b s)

/-- RUN_APP (R205, continued by R206 and R207). -/
def execRunApp (s : State) : Result := dispatchAs "RUN_APP" .runApp .rTeardown s

/-- ENTER_PROG (R205, continued by R208 and R209, where `MODE` is written). -/
def execEnterProg (s : State) : Result := dispatchAs "ENTER_PROG" .enterProg .gClear s

/-- REBOOT (R205, continued by R210 and R211). -/
def execReboot (s : State) : Result := dispatchAs "REBOOT" .reboot .bTeardown s

/-- CMD_IGNORED (R97, R205). -/
def execCmdIgnored (c : Byte) (s : State) : Result :=
  dispatchAs "CMD_IGNORED" (.cmdIgnored c) .cEnter s

/-- EMPTY_FRAME (R99, R205). -/
def execEmptyFrame (s : State) : Result := dispatchAs "EMPTY_FRAME" .emptyFrame .cEnter s

/-- IMAGE_BYTE (R93, R132). -/
def execImageByte (d : Byte) (s : State) : Result :=
  guarded "IMAGE_BYTE" (formatP s) (rxDmaStore d s)

end Sys2Proof.Machine
end

