-- ==== Sys2Proof/Machine/Dispatch.lean ====
section
/-! DEFINITION. The dispatch of an instruction to its meaning, one arm for each row of
spec/opcode_table.json. -/

namespace Sys2Proof.Machine

def exec (i : Instr) (s : State) : Host.Outcome State Fault Refusal :=
  match i with
  -- wire rows (30_encoding.md)
  | .activate => Sys2Proof.Machine.execActivate s
  | .actIgnored b => Sys2Proof.Machine.execActIgnored b s
  | .runApp => Sys2Proof.Machine.execRunApp s
  | .enterProg => Sys2Proof.Machine.execEnterProg s
  | .reboot => Sys2Proof.Machine.execReboot s
  | .cmdIgnored c => Sys2Proof.Machine.execCmdIgnored c s
  | .emptyFrame => Sys2Proof.Machine.execEmptyFrame s
  | .imageByte d => Sys2Proof.Machine.execImageByte d s
  -- events and handlers (30_encoding.md R101)
  | .reset => Sys2Proof.Machine.execReset s
  | .rx b => Sys2Proof.Machine.execRx b s
  | .idle => Sys2Proof.Machine.execIdle s
  | .tick => Sys2Proof.Machine.execTick s
  | .te => Sys2Proof.Machine.execTe s
  | .irqHt => Sys2Proof.Machine.execIrqHt s
  | .irqTc => Sys2Proof.Machine.execIrqTc s
  | .irqTe => Sys2Proof.Machine.execIrqTe s
  | .irqIdle => Sys2Proof.Machine.execIrqIdle s
  | .irqTim => Sys2Proof.Machine.execIrqTim s
  -- routes of RX (R104, R112)
  | .rxOff b => Sys2Proof.Machine.execRxOff b s
  | .rxUnheard b => Sys2Proof.Machine.execRxUnheard b s
  | .rxActivation b => Sys2Proof.Machine.execRxActivation b s
  | .rxFrameIdle b => Sys2Proof.Machine.execRxFrameIdle b s
  | .rxFrameStart1 b => Sys2Proof.Machine.execRxFrameStart1 b s
  | .rxFrameActive b => Sys2Proof.Machine.execRxFrameActive b s
  | .rxDmaStore b => Sys2Proof.Machine.execRxDmaStore b s
  | .rxDmaDrop b => Sys2Proof.Machine.execRxDmaDrop b s
  -- sequencer steps (46_session_controller.md)
  | .stepAPoll => Sys2Proof.Machine.execStepAPoll s
  | .stepCEnter => Sys2Proof.Machine.execStepCEnter s
  | .stepCRecv => Sys2Proof.Machine.execStepCRecv s
  | .stepCDispatch => Sys2Proof.Machine.execStepCDispatch s
  | .stepRTeardown => Sys2Proof.Machine.execStepRTeardown s
  | .stepRJump => Sys2Proof.Machine.execStepRJump s
  | .stepGClear => Sys2Proof.Machine.execStepGClear s
  | .stepGArm => Sys2Proof.Machine.execStepGArm s
  | .stepBTeardown => Sys2Proof.Machine.execStepBTeardown s
  | .stepBJump => Sys2Proof.Machine.execStepBJump s
  | .stepPCheck => Sys2Proof.Machine.execStepPCheck s
  | .stepPErase => Sys2Proof.Machine.execStepPErase s
  | .stepPWrite => Sys2Proof.Machine.execStepPWrite s
  | .stepPAdvance => Sys2Proof.Machine.execStepPAdvance s
  | .stepPClear => Sys2Proof.Machine.execStepPClear s
  | .stepEStop => Sys2Proof.Machine.execStepEStop s
  | .stepEReport => Sys2Proof.Machine.execStepEReport s
  | .stepERewind => Sys2Proof.Machine.execStepERewind s
  | .stepEClear => Sys2Proof.Machine.execStepEClear s
  | .stepEFallback => Sys2Proof.Machine.execStepEFallback s
  -- named operations (R103)
  | .receiveCommand => Sys2Proof.Machine.execReceiveCommand s
  | .startCapture dest => Sys2Proof.Machine.execStartCapture dest s
  | .stopCapture => Sys2Proof.Machine.execStopCapture s
  | .flashErasePage a => Sys2Proof.Machine.execFlashErasePage a s
  | .flashWriteHalf a h => Sys2Proof.Machine.execFlashWriteHalf a h s
  | .commitHalfPage dest h => Sys2Proof.Machine.execCommitHalfPage dest h s
  | .disarm => Sys2Proof.Machine.execDisarm s
  | .expire => Sys2Proof.Machine.execExpire s
  | .tryJump base => Sys2Proof.Machine.execTryJump base s
  | .teardownAll => Sys2Proof.Machine.execTeardownAll s
  | .rebootOp => Sys2Proof.Machine.execRebootOp s
  | .selfReset => Sys2Proof.Machine.execSelfReset s
  | .warmReset => Sys2Proof.Machine.execWarmReset s

end Sys2Proof.Machine
end

