-- ==== Sys2Proof/Machine/Fetch.lean ====
section
/-! DEFINITION. Which instruction the next step of a run is (30_encoding.md R101, R105): an event or
handler by its mnemonic, a received byte by the format or the route the state gives it, a `STEP` by
`SEQ`, which "takes the place" of a program counter (R22). -/

namespace Sys2Proof.Machine

/-- The row of the micro-step at a value of `SEQ`; none at GONE and FAULTED (R222). -/
def stepInstr : Seq → Option Instr
  | .aPoll => some .stepAPoll
  | .cEnter => some .stepCEnter
  | .cRecv => some .stepCRecv
  | .cDispatch => some .stepCDispatch
  | .rTeardown => some .stepRTeardown
  | .rJump => some .stepRJump
  | .gClear => some .stepGClear
  | .gArm => some .stepGArm
  | .bTeardown => some .stepBTeardown
  | .bJump => some .stepBJump
  | .pCheck => some .stepPCheck
  | .pErase => some .stepPErase
  | .pWrite => some .stepPWrite
  | .pAdvance => some .stepPAdvance
  | .pClear => some .stepPClear
  | .eStop => some .stepEStop
  | .eReport => some .stepEReport
  | .eRewind => some .stepERewind
  | .eClear => some .stepEClear
  | .eFallback => some .stepEFallback
  | .gone => none
  | .faulted => none

/-- The `STEP` at the state: a captured frame is dispatched as the command it decodes to (R94, R96),
every other micro-step is the row of `SEQ`. -/
def fetchStep (s : State) : Option Instr :=
  if s.halted then none
  else if formatC s then some s.frameInstr
  else stepInstr s.seq

/-- The row of `RX b` on each route (R104). -/
def routeInstr (r : RxRoute) (b : Byte) : Instr :=
  match r with
  | .noEffect => .rx b
  | .off => .rxOff b
  | .dmaStore => .rxDmaStore b
  | .dmaDrop => .rxDmaDrop b
  | .activation => .rxActivation b
  | .frameIdle => .rxFrameIdle b
  | .frameStart1 => .rxFrameStart1 b
  | .frameActive => .rxFrameActive b
  | .unheard => .rxUnheard b

/-- The received byte `b`: decoded by format A or P where the state applies it (R105), else the row
of its route. -/
def fetchRx (b : Byte) (s : State) : Instr :=
  if formatA s then decodeActivation s.params b
  else if formatP s then .imageByte b
  else routeInstr (rxRoute s) b

/-- The instruction a step of a run is, in the state it is taken in (R101, R105). -/
def fetch (e : RunStep) (s : State) : Option Instr :=
  match e with
  | .reset => some .reset
  | .rx b => some (fetchRx b s)
  | .idle => some .idle
  | .tick => some .tick
  | .te => some .te
  | .irqHt => some .irqHt
  | .irqTc => some .irqTc
  | .irqTe => some .irqTe
  | .irqIdle => some .irqIdle
  | .irqTim => some .irqTim
  | .step => fetchStep s

/-- The next step of the run and the state with the schedule moved past it: the head of the
schedule, or, when none is scheduled, a `STEP` of the main context (log entries 1, 2). -/
def nextStep (s : State) : RunStep × State :=
  match s.schedule with
  | [] => (.step, s)
  | e :: rest => (e, { s with schedule := rest })

/-- The payload bytes placed at the front of a buffer. -/
def placePayload (buf : Vector Byte Config.bufBytes) (payload : List Byte) :
    Vector Byte Config.bufBytes :=
  Vector.ofFn (fun k => (payload[k.val]?).getD buf[k])

/-- The state in which the very next step runs the table word (log entry 17): one byte is received
where format A is decoded; a frame's bytes stand captured where the frame is dispatched. The
parameters become `T0`, in which the opcode table gives its numerals (R12, R104). -/
def placeWord (s : State) (nbits w : Nat) : State :=
  match tableSymbols nbits w with
  | some (.a, _) =>
    { s with
      params := Params.t0
      halted := false, mode := .awaitingActivation, seq := .aPoll
      rxEn := true, rxDma := false
      schedule := .rx (byteOf w 0) :: s.schedule }
  | some (_, syms) =>
    match scanFrame Params.t0 .idle [] 0 syms with
    | .ok payload =>
      { s with
        params := Params.t0
        halted := false, mode := .commandAndControl, seq := .cDispatch
        rxLen := payload.length
        buf := placePayload s.buf payload
        schedule := .step :: s.schedule }
    | .error _ => s
  | none => s

end Sys2Proof.Machine
end

