-- ==== Sys2Proof/Machine/Step.lean ====
section
/-! DEFINITION. One step of a run (00_scope.md R10): the next scheduled step is fetched and the
instruction it is runs. -/

namespace Sys2Proof.Machine

/-- One step. Where the fetch gives no instruction (a `STEP` at a terminal value of `SEQ` or while
halted, R222), a block with nothing scheduled stays as it is (R37, R193, R256), and a scheduled
`STEP` is no legal step (log entries 2, 3). -/
def step (s : State) : Host.Outcome State Fault Refusal :=
  match fetch (nextStep s).1 (nextStep s).2 with
  | some i => exec i (nextStep s).2
  | none => if s.schedule = [] then .next s else .refused (.notEnabled "STEP")

/-- The state in which the next step fetches and runs the table word `w` of `nbits` bits (log entry
17). -/
def State.withFetchWord (s : State) (nbits w : Nat) : State := placeWord s nbits w

end Sys2Proof.Machine
end

