-- ==== Sys2Proof/WellFormed.lean ====
section
/-! DEFINITION. Which instruction terms stand for something the spec's tables can mean: the
"otherwise" rows ACT_IGNORED and CMD_IGNORED exclude the bytes of the other rows (30_encoding.md
R91, R96, R104). -/

namespace Sys2Proof

/-- The operand checks of the opcode table. Misaligned or out-of-range flash addresses are not
ill-formed: R151 to R153 give them an outcome. -/
def Instr.wellFormed (p : Params) : Instr → Bool
  | .actIgnored b => b != p.activationByte
  | .cmdIgnored c => c != p.cmdRunApp && c != p.cmdEnterProg && c != p.cmdReboot
  | _ => true

end Sys2Proof
end

