-- ==== Sys2Proof/Safety.lean ====
section
/-! DEFINITION. What counts as a safe run, in the terms claims use: the invariant of the block
(10_state.md, the rules cited at each clause), terminal and quiescent states
(70_reset_and_hazards.md R296), the timing-violation and tail-loss marks (R286, R287), runs, and the
clean session of R298. -/

namespace Sys2Proof.Machine

/-! ### States -/

/-- `MODE` as a function of `SEQ`, except in GONE and FAULTED (R22, R30). -/
def modeOf : Seq → Option Mode
  | .aPoll => some .awaitingActivation
  | .cEnter | .cRecv | .cDispatch | .rTeardown | .rJump | .gClear | .gArm | .bTeardown | .bJump =>
    some .commandAndControl
  | .pCheck | .pErase | .pWrite | .pAdvance | .pClear
  | .eStop | .eReport | .eRewind | .eClear | .eFallback => some .programmerMode
  | .gone | .faulted => none

/-- The values of `SEQ` from `G_ARM`'s end to `E_STOP`, where capture is armed (R45). -/
def captureSeq : Seq → Bool
  | .pCheck | .pErase | .pWrite | .pAdvance | .pClear | .eStop => true
  | _ => false

/-- No terminal state: the block takes steps (R37, R193, R256). -/
abbrev State.live (s : State) : Prop := s.halted = false ∧ s.seq ≠ .gone ∧ s.seq ≠ .faulted

/-- Every element of R46's list that has a reset value is at it (R46, R280, R283). -/
structure State.AtReset (s : State) : Prop where
  mode : s.mode = .awaitingActivation
  sup : s.sup = .armed
  seq : s.seq = .aPoll
  remain : s.remain = s.params.timeoutTicks
  capstat : s.capstat = .none
  msgDone : s.msgDone = false
  idleCnt : s.idleCnt = 0
  frame : s.frame = .idle
  rxLen : s.rxLen = 0
  curAddr : s.curAddr = s.params.appBase
  curPages : s.curPages = 0
  rxEn : s.rxEn = true
  rxDma : s.rxDma = false
  idleIe : s.idleIe = false
  idleIf : s.idleIf = false
  dmaEn : s.dmaEn = false
  dmaIdx : s.dmaIdx = 0
  htif : s.htif = false
  tcif : s.tcif = false
  teif : s.teif = false
  tif : s.tif = false
  halted : s.halted = false
  fault : s.fault = none
  handoff : s.handoff = none

/-- The three terminal states of R296. -/
def State.terminal (s : State) : Bool := s.halted || seqTerminal s.seq

/-- A quiescent state (R296). -/
def State.quiescent (s : State) : Bool :=
  (s.seq == .aPoll || s.seq == .cRecv) &&
  !s.htif && !s.tcif && !s.teif && !s.idleIf && !s.tif && !s.halted

/-- Parameters, memory and the bounds of the counters (R7, R27, R29, R33, R35, R49). -/
structure State.InvBounds (s : State) : Prop where
  params_valid : s.params.valid = true
  flash_wf : s.flash.wf = true
  idle_le : s.idleCnt ≤ Config.idleDebounce
  idle_lt : s.idleIe = true → s.idleCnt < Config.idleDebounce
  rx_le : s.rxLen ≤ Config.bufBytes
  dma_le : s.dmaIdx ≤ Config.bufBytes
  remain_le : s.remain ≤ s.params.timeoutTicks

/-- Which modes, enables and pending flags stand together (R22, R30, R33, R36, R45, R178, R258). -/
structure State.InvControl (s : State) : Prop where
  mode_of_seq : ∀ m, modeOf s.seq = some m → s.mode = m
  fault_iff : s.fault ≠ none ↔ s.seq = .faulted
  gone_iff : s.handoff ≠ none ↔ s.seq = .gone
  armed_poll : s.sup = .armed → s.seq = .aPoll ∧ 1 ≤ s.remain
  tif_armed : s.tif = true → s.sup = .armed
  dma_together : s.rxDma = s.dmaEn
  capture_armed : captureSeq s.seq = true → s.dmaEn = true ∧ s.rxEn = true
  rx_off : s.rxEn = false → s.seq = .rJump ∨ s.seq = .bJump ∨ s.seq = .cEnter ∨ s.seq = .gone ∨
    (s.seq = .cRecv ∧ s.msgDone = false)
  armed_capture : s.dmaEn = true → captureSeq s.seq = true ∨ s.seq = .faulted
  dma_flags : s.htif = true ∨ s.tcif = true ∨ s.teif = true → s.dmaEn = true
  tcif_full : s.dmaEn = true → (s.tcif = true ↔ s.dmaIdx = Config.bufBytes)
  idle_flag : s.idleIf = true → s.idleIe = true ∧ s.rxEn = true
  idle_seq : s.idleIe = true → s.seq = .cRecv ∨ captureSeq s.seq = true ∨ s.seq = .faulted
  idle_waits : s.idleIe = true → s.msgDone = false
  halted_te : s.halted = true → s.teif = true

/-- The page cursor and the flash engine's state, held by the alignment of the cursor and the page
count (R31, R32, R159, R213 to R215). -/
structure State.InvCursor (s : State) : Prop where
  cur_ge : s.params.appBase.toNat ≤ s.curAddr.toNat
  cur_le : s.curAddr.toNat ≤ s.params.appLimit.toNat
  cur_aligned : s.curAddr.toNat % Config.halfBytes = 0
  write_first : s.seq = .pWrite → s.latch = .first →
    halfAligned s.curAddr .first = true ∧
      inAppRegion s.params s.curAddr.toNat Config.pageBytes = true
  advance_fits : s.seq = .pAdvance →
    halfAligned s.curAddr s.latch = true ∧
      inAppRegion s.params s.curAddr.toNat Config.halfBytes = true
  erase_first : s.seq = .pErase → s.latch = .first
  rewind_pages : s.seq = .eRewind → s.curPages = 0
  pages_committed : s.curPages * Config.pageBytes + s.params.appBase.toNat ≤ s.curAddr.toNat

/-- The invariant of the block: what holds in every state a run reaches. -/
structure State.Inv (s : State) : Prop where
  bounds : s.InvBounds
  control : s.InvControl
  cursor : s.InvCursor

/-! ### Runs -/

/-- The run of a schedule: each of its steps in turn, stopping at the first fault or refusal. -/
def runSteps : List RunStep → State → Result
  | [], s => .next s
  | e :: rest, s =>
    match fetch e s with
    | none => .refused (.notEnabled "STEP")
    | some i =>
      match exec i s with
      | .next t => runSteps rest t
      | .fault f => .fault f
      | .refused r => .refused r

/-- The run of a link symbol: a byte is received, an idle frame is detected and its handler runs
(R102). -/
def linkSteps : LinkSymbol → List RunStep
  | .byte b => [.rx b]
  | .idle => [.idle, .irqIdle]

/-- The run of a symbol sequence on the link (R102). -/
def linkRun (syms : List LinkSymbol) : List RunStep := syms.flatMap linkSteps

/-- One timer period and its handler, the pseudo-step `SECOND` (R102). -/
def second : List RunStep := [.tick, .irqTim]

/-- The bytes among the symbols on the link. -/
def linkBytes (syms : List LinkSymbol) : List Byte :=
  syms.filterMap fun
    | .byte b => some b
    | .idle => none

/-- The schedules R177 speaks of: no activation byte and no `RESET` arrives, and every `TICK` is
served by its `IRQ_TIM` before the next `TICK`; `waiting` says that one waits to be served. Any other
byte, `IDLE`, `TE` and `STEP` may stand anywhere. The handlers of the other sources are not enabled
from reset without an activation byte (R121, R132, R138), so no run holds one. -/
def ticksServed (p : Params) : Bool → List RunStep → Bool
  | _, [] => true
  | waiting, .tick :: rest => !waiting && ticksServed p true rest
  | waiting, .irqTim :: rest => waiting && ticksServed p false rest
  | waiting, .rx b :: rest => b != p.activationByte && ticksServed p waiting rest
  | waiting, .step :: rest => ticksServed p waiting rest
  | waiting, .idle :: rest => ticksServed p waiting rest
  | waiting, .te :: rest => ticksServed p waiting rest
  | _, .reset :: _ => false
  | _, .irqHt :: _ => false
  | _, .irqTc :: _ => false
  | _, .irqTe :: _ => false
  | _, .irqIdle :: _ => false

/-! ### Marks -/

/-- The timing-violation marks of R286 and the tail-loss mark of R287. -/
inductive Mark where
  /-- A ready value overwritten. -/
  | v1
  /-- A byte lost in the re-arm window. -/
  | v2
  /-- A half written into before it was drained. -/
  | v3
  /-- Two completions merged. -/
  | v4
  /-- A ready or pending half discarded at the end of a session. -/
  | v5
  deriving DecidableEq, Repr

/-- The step carries the mark in the state it is taken in (R286, R287). -/
def marked (m : Mark) (e : RunStep) (s : State) : Bool :=
  match m, e with
  | .v1, .irqHt => irqHtEnabled s && s.capstat != .none
  | .v1, .irqTc => irqTcEnabled s && s.capstat != .none
  | .v2, .rx _ => rxRoute s == .dmaDrop && s.dmaEn && s.dmaIdx == Config.bufBytes
  | .v3, .rx _ =>
    rxRoute s == .dmaStore &&
      ((decide (s.dmaIdx < Config.halfBytes) && (s.capstat == .firstHalfReady || s.htif)) ||
        (decide (Config.halfBytes ≤ s.dmaIdx) && s.capstat == .secondHalfReady))
  | .v4, .rx _ => rxRoute s == .dmaStore && s.dmaIdx + 1 == Config.halfBytes && s.htif
  | .v5, .step =>
    stepEnabled .pCheck s && s.msgDone && (s.capstat != .none || s.htif || s.tcif)
  | _, _ => false

/-- The step carries no mark. -/
def unmarked (e : RunStep) (s : State) : Bool :=
  [Mark.v1, .v2, .v3, .v4, .v5].all (fun m => !marked m e s)

/-! ### The clean session of R298 -/

/-- One flash operation of a session. -/
inductive FlashOp where
  | erase (a : Nat)
  | write (a : Nat) (h : Half)
  deriving DecidableEq, Repr

/-- The flash operation a step makes. -/
def flashOps (e : RunStep) (s : State) : List FlashOp :=
  match e with
  | .step =>
    if stepEnabled .pErase s then [.erase s.curAddr.toNat]
    else if stepEnabled .pWrite s then [.write s.curAddr.toNat s.latch]
    else []
  | _ => []

/-- The byte a step stores through the DMA. -/
def storedBytes (e : RunStep) (s : State) : List Byte :=
  match e with
  | .rx b => if rxRoute s = .dmaStore then [b] else []
  | _ => []

/-- `SEQ` lies in a session, from `G_ARM` to `E_FALLBACK` (R298). -/
def sessionSeq : Seq → Bool
  | .gArm | .pCheck | .pErase | .pWrite | .pAdvance | .pClear
  | .eStop | .eReport | .eRewind | .eClear | .eFallback => true
  | _ => false

/-- A step a clean session may hold: inside the session, no `RESET`, no `TE`, no mark, and no byte
once the closing silence is counted (R298; log entry 28). -/
def cleanStep (e : RunStep) (s : State) : Bool :=
  sessionSeq s.seq && unmarked e s &&
    match e with
    | .reset => false
    | .te => false
    | .rx _ => !s.msgDone
    | _ => true

/-- What a run of a session leaves: the state, the bytes the DMA stored, the flash operations made,
each oldest first. -/
structure SessionTrace where
  final : State
  stored : List Byte
  ops : List FlashOp
  deriving DecidableEq, Repr

/-- The run of a clean session from a state; `none` where a step is not clean or not enabled. -/
def cleanSession : List RunStep → State → Option SessionTrace
  | [], s => some { final := s, stored := [], ops := [] }
  | e :: rest, s =>
    if cleanStep e s then
      match fetch e s with
      | none => none
      | some i =>
        match exec i s with
        | .next t =>
          match cleanSession rest t with
          | some tr =>
            some { tr with
              stored := storedBytes e s ++ tr.stored
              ops := flashOps e s ++ tr.ops }
          | none => none
        | _ => none
    else none

/-- The flash operations of half number `j` of a session that starts at `base` (R64, R153, R154). -/
def halfOps (base j : Nat) : List FlashOp :=
  if j % 2 = 0 then
    [.erase (base + Config.halfBytes * j), .write (base + Config.halfBytes * j) .first]
  else [.write (base + Config.halfBytes * j) .second]

end Sys2Proof.Machine
end

