-- ==== Sys2Proof/Certificates/Slice0/Obligations.lean ====
section
/-! DEFINITION. The statements about the block, for the provers. Each docstring names the rules it
formalises; one that rests on a choice of the model names its log entry. Where the rule named carries
the spec's own mark (decision or derived), the statement rests on the spec's inference, and its entry in
OBLIGATIONS.json has basis derived. -/

open Sys2Proof Sys2Proof.Machine

/-! ### Reset -/

/-- R46: what `RESET` and startup leave, the streams empty at the start of a run, flash kept. -/
def Obligations.ResetLeavesStatedValues : Prop :=
  State.reset.AtReset ∧ State.reset.reports = [] ∧ State.reset.notFounds = [] ∧
  State.reset.reboots = [] ∧
  ∀ s : State, ∃ t, exec .reset s = .next t ∧ t.AtReset ∧ t.flash = s.flash ∧
    t.reports = s.reports ∧ t.notFounds = s.notFounds ∧ t.reboots = s.reboots

/-- R280, R283: `RESET` is enabled in every state and is the same as `warm_reset`: the reset values,
`FLASH` and the streams kept. `BUF` and `LATCH` are free values that each row draws for itself (log
entry 8), so nothing is said of them. The parameters and the schedule are the model's own and stay (log
entries 1, 4), and so do core.sp and core.pc (log entry 11). -/
def Obligations.WarmResetEqualsReset : Prop :=
  ∀ s : State, ∃ t u, exec .reset s = .next t ∧ exec .warmReset s = .next u ∧
    u = { t with buf := u.buf, latch := u.latch, draws := u.draws } ∧ t.AtReset ∧
    t.coreSp = s.coreSp ∧ t.corePc = s.corePc ∧ t.flash = s.flash ∧ t.reports = s.reports ∧ t.notFounds = s.notFounds ∧
    t.reboots = s.reboots ∧ t.params = s.params ∧ t.schedule = s.schedule

/-! ### Received bytes -/

/-- R113, and the first line of R112: a byte has no effect in a terminal state, and a byte that
meets a disabled receiver changes nothing, `IDLECNT` included. -/
def Obligations.ByteIgnoredWhenOffOrTerminal : Prop :=
  ∀ (b : Byte) (s : State),
    (¬ s.live → exec (.rx b) s = .next s) ∧
    (s.live → s.rxEn = false → exec (.rx b) s = .next s ∧ exec (.rxOff b) s = .next s)

/-- R114: a byte nobody listens to is lost; only `IDLECNT` is cleared. -/
def Obligations.ByteUnheardClearsIdleCount : Prop :=
  ∀ (b : Byte) (s : State), s.live → s.rxEn = true → s.rxDma = false → s.seq ≠ .aPoll →
    (s.seq = .cRecv → s.msgDone = true) →
    exec (.rx b) s = .next { s with idleCnt := 0 } ∧
    exec (.rxUnheard b) s = .next { s with idleCnt := 0 }

/-- R115: at `A_POLL` the activation byte disarms the supervisor and enters CommandAndControl; any
other byte has no further effect. The wire rows of format A apply where `MODE` is
AwaitingActivation (R91, R105); that such a row is the received byte in that state is log entry 14. -/
def Obligations.ActivationByteDisarmsAndEnters : Prop :=
  ∀ (b : Byte) (s : State), s.live → s.rxEn = true → s.rxDma = false → s.seq = .aPoll →
    let active : State := { s with
      idleCnt := 0
      sup := if s.sup = .armed then .disarmed else s.sup
      tif := if s.sup = .armed then false else s.tif
      mode := .commandAndControl
      seq := .cEnter }
    (b = s.params.activationByte →
      exec (.rx b) s = .next active ∧ exec (.rxActivation b) s = .next active ∧
      (s.mode = .awaitingActivation → exec .activate s = .next active)) ∧
    (b ≠ s.params.activationByte →
      exec (.rx b) s = .next { s with idleCnt := 0 } ∧
      exec (.rxActivation b) s = .next { s with idleCnt := 0 } ∧
      (s.mode = .awaitingActivation → exec (.actIgnored b) s = .next { s with idleCnt := 0 }))

/-- R116, R117: the start sequence is the sentinel twice in a row; nothing is stored. -/
def Obligations.StartSequenceNeedsTwoSentinels : Prop :=
  ∀ (b : Byte) (s : State), s.live → s.rxEn = true → s.rxDma = false → s.seq = .cRecv →
    s.msgDone = false →
    (s.frame = .idle →
      ∀ f, f = (if b = s.params.startSentinel then FrameState.startDetectedOnce else .idle) →
        exec (.rx b) s = .next { s with idleCnt := 0, frame := f } ∧
        exec (.rxFrameIdle b) s = .next { s with idleCnt := 0, frame := f }) ∧
    (s.frame = .startDetectedOnce →
      ∀ f, f = (if b = s.params.startSentinel then FrameState.messageActive else .idle) →
        exec (.rx b) s = .next { s with idleCnt := 0, frame := f } ∧
        exec (.rxFrameStart1 b) s = .next { s with idleCnt := 0, frame := f })

/-- R118, R119: in MessageActive a byte is appended at `BUFB[RXLEN]`; with no place left the step
faults `RxOverflow` and stores nothing. R118 clears `IDLECNT` before its require line; that a faulting
step keeps it is log entry 12 (R9 and R256 followed). -/
def Obligations.PayloadByteAppendedOrOverflows : Prop :=
  ∀ (b : Byte) (s : State), s.live → s.rxEn = true → s.rxDma = false → s.seq = .cRecv →
    s.msgDone = false → s.frame = .messageActive →
    (s.rxLen < 256 → ∃ t, exec (.rx b) s = .next t ∧ exec (.rxFrameActive b) s = .next t ∧
      t = { s with idleCnt := 0, rxLen := s.rxLen + 1, buf := t.buf } ∧
      t.bufByte s.rxLen = b ∧ ∀ k, k ≠ s.rxLen → t.bufByte k = s.bufByte k) ∧
    (256 ≤ s.rxLen →
      exec (.rx b) s = .next { s with fault := some .rxOverflow, seq := .faulted } ∧
      exec (.rxFrameActive b) s = .next { s with fault := some .rxOverflow, seq := .faulted })

/-- R132, R133, R134: the DMA store, with the half-transfer event at 128 bytes and the full-transfer
event at 256 (R133 is the spec's decision D12, R134 its decision D22). The wire row of format P applies
where `MODE` is ProgrammerMode (R93, R105); that the row is the store step alone is log entry 14, while
R93 also gives the byte its flash destination. -/
def Obligations.DmaStoreRaisesTransferFlags : Prop :=
  ∀ (b : Byte) (s : State), s.live → s.rxEn = true → s.rxDma = true → s.dmaEn = true →
    s.dmaIdx < 256 →
    ∃ t, exec (.rx b) s = .next t ∧ exec (.rxDmaStore b) s = .next t ∧
      (s.mode = .programmerMode → exec (.imageByte b) s = .next t) ∧
      t = { s with
        idleCnt := 0
        dmaIdx := s.dmaIdx + 1
        htif := if s.dmaIdx + 1 = 128 then true else s.htif
        tcif := if s.dmaIdx + 1 = 256 then true else s.tcif
        buf := t.buf } ∧
      t.bufByte s.dmaIdx = b ∧ ∀ k, k ≠ s.dmaIdx → t.bufByte k = s.bufByte k

/-- R135: a byte the channel cannot take is lost. -/
def Obligations.DmaDropLosesByte : Prop :=
  ∀ (b : Byte) (s : State), s.live → s.rxEn = true → s.rxDma = true →
    (s.dmaEn = false ∨ 256 ≤ s.dmaIdx) →
    exec (.rx b) s = .next { s with idleCnt := 0 } ∧
    exec (.rxDmaDrop b) s = .next { s with idleCnt := 0 }

/-! ### Events and handlers -/

/-- R121, R172: `IDLE` and `TICK` latch their flag while their source is enabled, and else have no
effect. -/
def Obligations.IdleAndTickLatchWhenEnabled : Prop :=
  ∀ s : State,
    (s.live → s.rxEn = true → s.idleIe = true →
      exec .idle s = .next { s with idleIf := true }) ∧
    (¬ (s.live ∧ s.rxEn = true ∧ s.idleIe = true) → exec .idle s = .next s) ∧
    (s.live → s.sup = .armed → exec .tick s = .next { s with tif := true }) ∧
    (¬ (s.live ∧ s.sup = .armed) → exec .tick s = .next s)

/-- R138: `TE` sets `TEIF` while the channel is enabled and leaves every other element but the
buffer; without the channel it has no effect. The buffer's new bytes are free values (log entry 8),
so the statement says nothing of them. -/
def Obligations.TransferErrorEventSetsPending : Prop :=
  ∀ s : State,
    (s.live → s.dmaEn = true → ∃ t, exec .te s = .next t ∧
      t = { s with teif := true, buf := t.buf, draws := t.draws }) ∧
    (¬ (s.live ∧ s.dmaEn = true) → exec .te s = .next s)

/-- R136, R137: the half-transfer and full-transfer handlers. That the re-arm of `IRQ_TC` is one atomic
step which leaves `RX_EN` at 1 is the spec's decision D22. -/
def Obligations.TransferHandlersSetReady : Prop :=
  ∀ s : State, s.live → s.dmaEn = true →
    (s.htif = true →
      exec .irqHt s = .next { s with htif := false, capstat := .firstHalfReady }) ∧
    (s.tcif = true →
      exec .irqTc s =
        .next { s with tcif := false, capstat := .secondHalfReady, dmaIdx := 0, rxEn := true })

/-- R139, R264: the transfer-error handler halts the block and writes nothing else; from then on no
step but `RESET` changes it. -/
def Obligations.TransferErrorHandlerHalts : Prop :=
  ∀ s : State, s.live → s.dmaEn = true → s.teif = true →
    exec .irqTe s = .next { s with halted := true }

/-- R122: the idle handler counts, and at the second consecutive detection completes the message and
disables itself. -/
def Obligations.IdleHandlerCompletesAtTwo : Prop :=
  ∀ s : State, s.live → s.idleIf = true → s.idleIe = true →
    (s.idleCnt + 1 ≠ 2 →
      exec .irqIdle s = .next { s with idleIf := false, idleCnt := s.idleCnt + 1 }) ∧
    (s.idleCnt + 1 = 2 →
      exec .irqIdle s =
        .next { s with idleIf := false, idleCnt := 2, msgDone := true, idleIe := false })

/-- R173, R174, R179: the timer handler counts down; at the last tick it de-initialises the
supervisor and hands off to the image, or reports that none is there. The two expiry clauses are the
spec's decision D29 (R174: only the supervisor is torn down, `RX_EN` kept) and its derived R179. -/
def Obligations.TimerHandlerCountsDownAndExpires : Prop :=
  ∀ s : State, s.live → s.tif = true → s.sup = .armed →
    (2 ≤ s.remain → exec .irqTim s = .next { s with tif := false, remain := s.remain - 1 }) ∧
    (s.remain = 1 → s.params.valid = true →
      s.flash.word s.params.appBase.toNat = s.params.spSentinel →
      exec .irqTim s = .next { s with
        tif := false, remain := 0, sup := .expired, seq := .gone
        coreSp := s.params.spSentinel
        corePc := s.flash.word (s.params.appBase.toNat + 4)
        handoff := some
          { base := s.params.appBase, sp := s.params.spSentinel,
            entry := s.flash.word (s.params.appBase.toNat + 4) } }) ∧
    (s.remain = 1 → s.params.valid = true →
      s.flash.word s.params.appBase.toNat ≠ s.params.spSentinel →
      exec .irqTim s = .next { s with
        tif := false, remain := 0, sup := .expired
        notFounds := s.notFounds ++ [s.params.appBase] })

/-- R259: a handler step is enabled exactly when its pending flag is set, its enable of R257 holds
and the block is not in a terminal state. Under the invariant the idle line's two enables agree (log
entry 13). -/
def Obligations.HandlerEnabledExactlyWhenPending : Prop :=
  ∀ s : State, s.Inv →
    ((∃ t, exec .irqHt s = .next t) ↔ s.htif = true ∧ s.dmaEn = true ∧ s.live) ∧
    ((∃ t, exec .irqTc s = .next t) ↔ s.tcif = true ∧ s.dmaEn = true ∧ s.live) ∧
    ((∃ t, exec .irqTe s = .next t) ↔ s.teif = true ∧ s.dmaEn = true ∧ s.live) ∧
    ((∃ t, exec .irqIdle s = .next t) ↔
      s.idleIf = true ∧ (s.idleIe = true ∧ s.rxEn = true) ∧ s.live) ∧
    ((∃ t, exec .irqTim s = .next t) ↔ s.tif = true ∧ s.sup = .armed ∧ s.live)

/-- R261, R262, R263: a handler leaves the main context's position, sample, cursor, framing and
buffer, and flash, untouched; only a timer handler whose hand-off succeeded changes `SEQ`. -/
def Obligations.HandlersLeaveMainContext : Prop :=
  ∀ (s t : State) (e : RunStep), e ∈ [.irqHt, .irqTc, .irqTe, .irqIdle, .irqTim] →
    runSteps [e] s = .next t →
    t.latch = s.latch ∧ t.mode = s.mode ∧ t.curAddr = s.curAddr ∧ t.curPages = s.curPages ∧
    t.frame = s.frame ∧ t.rxLen = s.rxLen ∧ t.buf = s.buf ∧ t.flash = s.flash ∧
    (t.seq = s.seq ∨ (e = .irqTim ∧ t.seq = .gone ∧ t.handoff ≠ none))

/-! ### The main context -/

/-- R201, R111, R123: the activation poll changes nothing; `receive_command` is entered with its
framing state re-initialised (the spec's decision D13); its poll returns when the message is done. -/
def Obligations.ReceiveEntryAndPoll : Prop :=
  ∀ s : State, s.halted = false →
    (s.seq = .aPoll → exec .stepAPoll s = .next s) ∧
    (s.seq = .cEnter → exec .stepCEnter s = .next { s with
      frame := .idle, idleCnt := 0, msgDone := false, rxLen := 0
      idleIf := false, idleIe := true, seq := .cRecv }) ∧
    (s.seq = .cRecv → s.msgDone = true →
      exec .stepCRecv s = .next { s with seq := .cDispatch }) ∧
    (s.seq = .cRecv → s.msgDone = false → exec .stepCRecv s = .next s)

/-- R205: the dispatch writes `SEQ` only, by the first payload byte; an empty frame and any other
byte return to `C_ENTER`. The command rows apply where `MODE` is CommandAndControl (R92); that a row of
format C is the dispatch step alone is log entry 14, while R96 gives a command the rules of its later
steps too. -/
def Obligations.DispatchByFirstPayloadByte : Prop :=
  ∀ s : State, s.params.valid = true → s.seq = .cDispatch → s.halted = false →
    let toSeq (q : Seq) : Host.Outcome State Fault Refusal := .next { s with seq := q }
    let c := s.bufByte 0
    (s.rxLen = 0 → exec .stepCDispatch s = toSeq .cEnter ∧
      (s.mode = .commandAndControl → exec .emptyFrame s = toSeq .cEnter)) ∧
    (s.rxLen ≠ 0 → c = s.params.cmdRunApp → exec .stepCDispatch s = toSeq .rTeardown ∧
      (s.mode = .commandAndControl → exec .runApp s = toSeq .rTeardown)) ∧
    (s.rxLen ≠ 0 → c = s.params.cmdEnterProg → exec .stepCDispatch s = toSeq .gClear ∧
      (s.mode = .commandAndControl → exec .enterProg s = toSeq .gClear)) ∧
    (s.rxLen ≠ 0 → c = s.params.cmdReboot → exec .stepCDispatch s = toSeq .bTeardown ∧
      (s.mode = .commandAndControl → exec .reboot s = toSeq .bTeardown)) ∧
    (s.rxLen ≠ 0 → c ≠ s.params.cmdRunApp → c ≠ s.params.cmdEnterProg →
      c ≠ s.params.cmdReboot → exec .stepCDispatch s = toSeq .cEnter ∧
      (s.mode = .commandAndControl → exec (.cmdIgnored c) s = toSeq .cEnter))

/-- R206, R207: `run-app` tears every peripheral down, then jumps if the image is present and else
reports and continues, the receiver enabled again only if the parameter says so. The teardown's list
of elements is the spec's decision D30 (R190), the continuation after an absent image D31 (R207). -/
def Obligations.RunAppTearsDownThenJumps : Prop :=
  ∀ s : State, s.halted = false →
    (s.seq = .rTeardown → exec .stepRTeardown s = .next { s with
      dmaEn := false, htif := false, tcif := false, teif := false, rxDma := false
      idleIe := false, idleIf := false, rxEn := false
      sup := if s.sup = .armed then .disarmed else s.sup
      tif := if s.sup = .armed then false else s.tif
      seq := .rJump }) ∧
    (s.seq = .rJump → s.params.valid = true →
      s.flash.word s.params.appBase.toNat = s.params.spSentinel →
      exec .stepRJump s = .next { s with
        seq := .gone
        coreSp := s.params.spSentinel
        corePc := s.flash.word (s.params.appBase.toNat + 4)
        handoff := some
          { base := s.params.appBase, sp := s.params.spSentinel,
            entry := s.flash.word (s.params.appBase.toNat + 4) } }) ∧
    (s.seq = .rJump → s.params.valid = true →
      s.flash.word s.params.appBase.toNat ≠ s.params.spSentinel →
      exec .stepRJump s = .next { s with
        seq := .cEnter
        rxEn := if s.params.reenableAfterAbsent then true else s.rxEn
        notFounds := s.notFounds ++ [s.params.appBase] })

/-- R208, R209: `enter-programmer` clears the buffer, then arms capture and the idle interrupt,
rewinds the cursor and enters ProgrammerMode. -/
def Obligations.EnterProgrammerClearsThenArms : Prop :=
  ∀ s : State, s.halted = false →
    (s.seq = .gClear → ∃ t, exec .stepGClear s = .next t ∧
      t = { s with buf := t.buf, seq := .gArm } ∧ ∀ k, t.bufByte k = 0x00#8) ∧
    (s.seq = .gArm → exec .stepGArm s = .next { s with
      sup := if s.sup = .armed then .disarmed else s.sup
      tif := if s.sup = .armed then false else s.tif
      curAddr := s.params.appBase
      curPages := 0
      idleCnt := 0, msgDone := false, idleIf := false
      htif := false, tcif := false, teif := false
      capstat := .none, dmaIdx := 0, rxDma := true, dmaEn := true
      idleIe := true
      mode := .programmerMode
      seq := .pCheck })

/-- R210, R211, R191: `reboot` tears down, then reads the two words at `BOOT_BASE` without a presence
check, reports them and ends in the reset state with `FLASH` kept. Teardown and unchecked lookup are the
spec's decision D32. The schedule is the model's own and stays (log entry 1). -/
def Obligations.RebootCommandEndsInReset : Prop :=
  ∀ s : State, s.halted = false →
    (s.seq = .bTeardown → exec .stepBTeardown s = .next { s with
      dmaEn := false, htif := false, tcif := false, teif := false, rxDma := false
      idleIe := false, idleIf := false, rxEn := false
      sup := if s.sup = .armed then .disarmed else s.sup
      tif := if s.sup = .armed then false else s.tif
      seq := .bJump }) ∧
    (s.seq = .bJump → s.params.valid = true → ∃ t, exec .stepBJump s = .next t ∧ t.AtReset ∧
      t.params = s.params ∧ t.flash = s.flash ∧
      t.coreSp = s.flash.word s.params.bootBase.toNat ∧
      t.corePc = s.flash.word (s.params.bootBase.toNat + 4) ∧
      t.reports = s.reports ∧ t.notFounds = s.notFounds ∧ t.schedule = s.schedule ∧
      t.reboots = s.reboots ++
        [{ base := s.params.bootBase, sp := s.flash.word s.params.bootBase.toNat,
           entry := s.flash.word (s.params.bootBase.toNat + 4) }])

/-- R212: the completion test comes first; else the ready half is sampled; else nothing changes. -/
def Obligations.PollTestsCompletionFirst : Prop :=
  ∀ s : State, s.halted = false → s.seq = .pCheck →
    (s.msgDone = true → exec .stepPCheck s = .next { s with seq := .eStop }) ∧
    (s.msgDone = false → s.capstat = .firstHalfReady →
      exec .stepPCheck s = .next { s with latch := .first, seq := .pErase }) ∧
    (s.msgDone = false → s.capstat = .secondHalfReady →
      exec .stepPCheck s = .next { s with latch := .second, seq := .pWrite }) ∧
    (s.msgDone = false → s.capstat = .none → exec .stepPCheck s = .next s)

/-- R213, R151: the erase at the cursor, or its fault, which changes nothing else. Every byte outside
the page reads as before. The range test and `ERASED_BYTE` are the spec's decision D7 (R68, R151), what
the fault writes its decision D25 (R256). -/
def Obligations.EraseStepErasesCursorPage : Prop :=
  ∀ s : State, s.halted = false → s.seq = .pErase → s.flash.wf = true →
    (s.curAddr.toNat % 256 ≠ 0 →
      exec .stepPErase s = .next { s with fault := some .flashContract, seq := .faulted }) ∧
    (s.curAddr.toNat % 256 = 0 →
      ¬ (s.params.appBase.toNat ≤ s.curAddr.toNat ∧
        s.curAddr.toNat + 256 ≤ s.params.appLimit.toNat) →
      exec .stepPErase s = .next { s with fault := some .flashRange, seq := .faulted }) ∧
    (s.curAddr.toNat % 256 = 0 → s.params.appBase.toNat ≤ s.curAddr.toNat →
      s.curAddr.toNat + 256 ≤ s.params.appLimit.toNat →
      ∃ t, exec .stepPErase s = .next t ∧ t = { s with flash := t.flash, seq := .pWrite } ∧
        ∀ a, t.flash.read a =
          if s.curAddr.toNat ≤ a ∧ a < s.curAddr.toNat + 256 then s.params.erasedByte
          else s.flash.read a)

/-- R214: the burst of the latched half at the cursor, or its fault. Every byte outside the half
reads as before. -/
def Obligations.WriteStepWritesLatchedHalf : Prop :=
  ∀ s : State, s.halted = false → s.seq = .pWrite → s.flash.wf = true →
    let off := match s.latch with | .first => 0 | .second => 128
    (s.curAddr.toNat % 256 ≠ off →
      exec .stepPWrite s = .next { s with fault := some .flashContract, seq := .faulted }) ∧
    (s.curAddr.toNat % 256 = off →
      ¬ (s.params.appBase.toNat ≤ s.curAddr.toNat ∧
        s.curAddr.toNat + 128 ≤ s.params.appLimit.toNat) →
      exec .stepPWrite s = .next { s with fault := some .flashRange, seq := .faulted }) ∧
    (s.curAddr.toNat % 256 = off → s.params.appBase.toNat ≤ s.curAddr.toNat →
      s.curAddr.toNat + 128 ≤ s.params.appLimit.toNat →
      ∃ t, exec .stepPWrite s = .next t ∧ t = { s with flash := t.flash, seq := .pAdvance } ∧
        ∀ a, t.flash.read a =
          if s.curAddr.toNat ≤ a ∧ a < s.curAddr.toNat + 128 then
            s.bufByte (off + (a - s.curAddr.toNat))
          else s.flash.read a)

/-- R215, R216: the cursor advances by a half-page, the page count when a second half was committed;
then the capture status is cleared. The advance is the spec's decisions D26 and D40. -/
def Obligations.AdvanceCursorThenClearStatus : Prop :=
  ∀ s : State, s.halted = false →
    (s.seq = .pAdvance → exec .stepPAdvance s = .next { s with
      curAddr := s.curAddr + 128#32
      curPages := if s.latch = .second then s.curPages + 1 else s.curPages
      seq := .pClear }) ∧
    (s.seq = .pClear → exec .stepPClear s = .next { s with capstat := .none, seq := .pCheck })

/-- R217 to R221: the five closing steps of a session. The report is the spec's decision D35 (R218),
the clear its decision D21 (R220). -/
def Obligations.SessionClosingSteps : Prop :=
  ∀ s : State, s.halted = false →
    (s.seq = .eStop → exec .stepEStop s = .next { s with
      dmaEn := false, htif := false, tcif := false, teif := false, rxDma := false
      idleIe := false, idleIf := false, seq := .eReport }) ∧
    (s.seq = .eReport → exec .stepEReport s = .next { s with
      reports := s.reports ++ [s.curPages], curPages := 0, seq := .eRewind }) ∧
    (s.seq = .eRewind →
      exec .stepERewind s = .next { s with curAddr := s.params.appBase, seq := .eClear }) ∧
    (s.seq = .eClear → ∃ t, exec .stepEClear s = .next t ∧
      t = { s with
        buf := t.buf, capstat := .none, msgDone := false, idleCnt := 0, dmaIdx := 0
        seq := .eFallback } ∧
      ∀ k, t.bufByte k = 0x00#8) ∧
    (s.seq = .eFallback →
      exec .stepEFallback s = .next { s with mode := .commandAndControl, seq := .cEnter })

/-- 46_session_controller.md, header, and R222: a STEP rule is enabled exactly when `SEQ` has its
value and `HALTED = 0`; at `GONE` and `FAULTED` there is no row at all. -/
def Obligations.StepEnabledExactlyAtItsValue : Prop :=
  stepInstr .gone = none ∧ stepInstr .faulted = none ∧
  ∀ (q : Seq) (i : Instr) (s : State), stepInstr q = some i →
    ((∃ t, exec i s = .next t) ↔ s.seq = q ∧ s.halted = false)

/-! ### Named operations -/

/-- R130, R131: arming and stopping the capture. -/
def Obligations.StartAndStopCapture : Prop :=
  ∀ (d : BufferRef) (s : State),
    exec (.startCapture d) s = .next { s with
      htif := false, tcif := false, teif := false
      capstat := .none, dmaIdx := 0, rxDma := true, dmaEn := true } ∧
    exec .stopCapture s = .next { s with
      dmaEn := false, htif := false, tcif := false, teif := false, rxDma := false }

/-- R175, R190: the disarm, which acts only on an armed supervisor, and the teardown of every
peripheral. -/
def Obligations.DisarmAndTeardown : Prop :=
  ∀ s : State,
    (s.sup = .armed → exec .disarm s = .next { s with sup := .disarmed, tif := false }) ∧
    (s.sup ≠ .armed → exec .disarm s = .next s) ∧
    exec .teardownAll s = .next { s with
      dmaEn := false, htif := false, tcif := false, teif := false, rxDma := false
      idleIe := false, idleIf := false, rxEn := false
      sup := if s.sup = .armed then .disarmed else s.sup
      tif := if s.sup = .armed then false else s.tif }

/-- R151: `flash_erase_page(a)`. -/
def Obligations.ErasePageOperation : Prop :=
  ∀ (a : Addr) (s : State), s.flash.wf = true →
    (a.toNat % 256 ≠ 0 → exec (.flashErasePage a) s =
      .next { s with fault := some .flashContract, seq := .faulted }) ∧
    (a.toNat % 256 = 0 →
      ¬ (s.params.appBase.toNat ≤ a.toNat ∧ a.toNat + 256 ≤ s.params.appLimit.toNat) →
      exec (.flashErasePage a) s =
        .next { s with fault := some .flashRange, seq := .faulted }) ∧
    (a.toNat % 256 = 0 → s.params.appBase.toNat ≤ a.toNat →
      a.toNat + 256 ≤ s.params.appLimit.toNat →
      ∃ t, exec (.flashErasePage a) s = .next t ∧ t = { s with flash := t.flash } ∧
        ∀ x, t.flash.read x =
          if a.toNat ≤ x ∧ x < a.toNat + 256 then s.params.erasedByte else s.flash.read x)

/-- R152: `flash_write_half(a, h)`. The store is the rule's pseudocode, whatever the target bytes
held (log entry 29). -/
def Obligations.WriteHalfOperation : Prop :=
  ∀ (a : Addr) (h : Half) (s : State), s.flash.wf = true →
    let off := match h with | .first => 0 | .second => 128
    (a.toNat % 128 ≠ 0 → exec (.flashWriteHalf a h) s =
      .next { s with fault := some .flashContract, seq := .faulted }) ∧
    (a.toNat % 128 = 0 →
      ¬ (s.params.appBase.toNat ≤ a.toNat ∧ a.toNat + 128 ≤ s.params.appLimit.toNat) →
      exec (.flashWriteHalf a h) s =
        .next { s with fault := some .flashRange, seq := .faulted }) ∧
    (a.toNat % 128 = 0 → s.params.appBase.toNat ≤ a.toNat →
      a.toNat + 128 ≤ s.params.appLimit.toNat →
      ∃ t, exec (.flashWriteHalf a h) s = .next t ∧ t = { s with flash := t.flash } ∧
        ∀ x, t.flash.read x =
          if a.toNat ≤ x ∧ x < a.toNat + 128 then s.bufByte (off + (x - a.toNat))
          else s.flash.read x)

/-- R153, R155: `commit_half_page(dest, h)`: First erases its page and writes its first half, Second
writes without erasing; outside the contract the flash is unchanged. That a second half is stored over
whatever its bytes held is log entry 29. -/
def Obligations.CommitErasesOnlyWithFirstHalf : Prop :=
  ∀ (d : Addr) (s : State), s.flash.wf = true → s.params.valid = true →
    (d.toNat % 256 ≠ 0 → exec (.commitHalfPage d .first) s =
      .next { s with fault := some .flashContract, seq := .faulted }) ∧
    (d.toNat % 256 ≠ 128 → exec (.commitHalfPage d .second) s =
      .next { s with fault := some .flashContract, seq := .faulted }) ∧
    (d.toNat % 256 = 0 →
      ¬ (s.params.appBase.toNat ≤ d.toNat ∧ d.toNat + 256 ≤ s.params.appLimit.toNat) →
      exec (.commitHalfPage d .first) s =
        .next { s with fault := some .flashRange, seq := .faulted }) ∧
    (d.toNat % 256 = 128 →
      ¬ (s.params.appBase.toNat ≤ d.toNat ∧ d.toNat + 128 ≤ s.params.appLimit.toNat) →
      exec (.commitHalfPage d .second) s =
        .next { s with fault := some .flashRange, seq := .faulted }) ∧
    (d.toNat % 256 = 0 → s.params.appBase.toNat ≤ d.toNat →
      d.toNat + 256 ≤ s.params.appLimit.toNat →
      ∃ t, exec (.commitHalfPage d .first) s = .next t ∧ t = { s with flash := t.flash } ∧
        ∀ x, t.flash.read x =
          if d.toNat ≤ x ∧ x < d.toNat + 128 then s.bufByte (x - d.toNat)
          else if d.toNat + 128 ≤ x ∧ x < d.toNat + 256 then s.params.erasedByte
          else s.flash.read x) ∧
    (d.toNat % 256 = 128 → s.params.appBase.toNat ≤ d.toNat →
      d.toNat + 128 ≤ s.params.appLimit.toNat →
      ∃ t, exec (.commitHalfPage d .second) s = .next t ∧ t = { s with flash := t.flash } ∧
        ∀ x, t.flash.read x =
          if d.toNat ≤ x ∧ x < d.toNat + 128 then s.bufByte (128 + (x - d.toNat))
          else s.flash.read x)

/-- R185 to R188: `try_jump(base)` compares all 32 bits with the sentinel and either records the
hand-off or reports that no image is there; nothing else changes. Each clause's hypothesis keeps the
words it reads inside the address space; past it, TryJumpPastSpaceReadsFreeValues (log entry 10). -/
def Obligations.TryJumpChecksSentinel : Prop :=
  ∀ (base : Addr) (s : State),
    (base.toNat + 8 ≤ 4294967296 → s.flash.word base.toNat = s.params.spSentinel →
      exec (.tryJump base) s = .next { s with
        coreSp := s.params.spSentinel
        corePc := s.flash.word (base.toNat + 4)
        handoff := some
          { base := base, sp := s.params.spSentinel,
            entry := s.flash.word (base.toNat + 4) } }) ∧
    (base.toNat + 4 ≤ 4294967296 → s.flash.word base.toNat ≠ s.params.spSentinel →
      exec (.tryJump base) s = .next { s with notFounds := s.notFounds ++ [base] })

/-- Log entry 10, the model's choice: a byte that `try_jump` reads past the 32-bit address space is a
free value, and every other effect of R185 to R188 is kept, at every base. `w0` and `entry` are the
two words read; of `draws`, the model's own count of free values, nothing is said. -/
def Obligations.TryJumpPastSpaceReadsFreeValues : Prop :=
  ∀ (base : Addr) (s : State), ∃ (w0 entry : Word) (t : State),
    exec (.tryJump base) s = .next t ∧
    (∀ k, k < 4 → base.toNat + k < 4294967296 →
      BitVec.extractLsb' (8 * k) 8 w0 = s.flash.read (base.toNat + k)) ∧
    (∀ k, k < 4 → base.toNat + 4 + k < 4294967296 →
      BitVec.extractLsb' (8 * k) 8 entry = s.flash.read (base.toNat + 4 + k)) ∧
    (w0 = s.params.spSentinel → t = { s with
      coreSp := w0, corePc := entry
      handoff := some { base := base, sp := w0, entry := entry }
      draws := t.draws }) ∧
    (w0 ≠ s.params.spSentinel →
      t = { s with notFounds := s.notFounds ++ [base], draws := t.draws })

/-- R174: `expire()` de-initialises the supervisor first, then hands off. -/
def Obligations.ExpireDeinitialisesThenJumps : Prop :=
  ∀ s : State, s.params.valid = true →
    (s.flash.word s.params.appBase.toNat = s.params.spSentinel →
      exec .expire s = .next { s with
        sup := .expired, tif := false, seq := .gone
        coreSp := s.params.spSentinel
        corePc := s.flash.word (s.params.appBase.toNat + 4)
        handoff := some
          { base := s.params.appBase, sp := s.params.spSentinel,
            entry := s.flash.word (s.params.appBase.toNat + 4) } }) ∧
    (s.flash.word s.params.appBase.toNat ≠ s.params.spSentinel →
      exec .expire s = .next { s with
        sup := .expired, tif := false, notFounds := s.notFounds ++ [s.params.appBase] })

/-- R191, R192: the operations `reboot` and `self_reset` make the vector lookup at `BOOT_BASE`, emit
`REBOOTED` and end in the reset state. `BUF` and `LATCH` are free values that each row draws for itself
(log entry 8), so nothing is said of them. The parameters and the schedule are the model's own and stay
(log entries 1, 4). -/
def Obligations.RebootAndSelfResetOperations : Prop :=
  ∀ s : State, s.params.valid = true →
    ∃ t u, exec .rebootOp s = .next t ∧ exec .selfReset s = .next u ∧
      u = { t with buf := u.buf, latch := u.latch, draws := u.draws } ∧ t.AtReset ∧
      t.params = s.params ∧ t.flash = s.flash ∧
      t.coreSp = s.flash.word s.params.bootBase.toNat ∧
      t.corePc = s.flash.word (s.params.bootBase.toNat + 4) ∧
      t.reports = s.reports ∧ t.notFounds = s.notFounds ∧ t.schedule = s.schedule ∧
      t.reboots = s.reboots ++
        [{ base := s.params.bootBase, sp := s.flash.word s.params.bootBase.toNat,
           entry := s.flash.word (s.params.bootBase.toNat + 4) }]

/-- R110, R124: with nothing on the link `receive_command` blocks at `C_RECV` after its entry (the
model's reading of an empty schedule is log entry 15). -/
def Obligations.ReceiveCommandBlocksOnSilence : Prop :=
  ∀ s : State, s.seq = .cEnter → s.halted = false → s.schedule = [] →
    exec .receiveCommand s = .next { s with
      frame := .idle, idleCnt := 0, msgDone := false, rxLen := 0
      idleIf := false, idleIe := true, seq := .cRecv }

/-! ### Decoding and running -/

/-- A step runs the instruction that the fetch gives for the next scheduled step, on the state with
the schedule moved past it; with nothing scheduled it runs the main context's (log entries 1, 2). -/
def Obligations.StepRunsFetchedInstruction : Prop :=
  ∀ (s : State) (i : Instr),
    (∀ e rest, s.schedule = e :: rest → fetch e { s with schedule := rest } = some i →
      step s = exec i { s with schedule := rest }) ∧
    (s.schedule = [] → fetch .step s = some i → step s = exec i s)

/-- R105, R101: the instruction a step of a run is, is well-formed, and running it is running the
general row of its mnemonic: the row `RX` for a byte, the row of `SEQ` for a `STEP`. That a fetched
wire row is that one step alone is log entry 14, while R93 and R96 give such rows the effects of later
steps too. -/
def Obligations.FetchedRowAgreesWithGeneralRow : Prop :=
  ∀ (s : State) (e : RunStep) (i : Instr), fetch e s = some i →
    i.wellFormed s.params = true ∧
    (∀ b, e = .rx b → exec i s = exec (.rx b) s) ∧
    (e = .step → ∃ g, stepInstr s.seq = some g ∧ exec i s = exec g s)

/-- Log entry 17, the model's conventions: a table word that decodes is what the next step runs. -/
def Obligations.TableWordRunsNext : Prop :=
  ∀ (s : State) (nbits w : Nat) (i : Instr), decodeTableWord nbits w = some i →
    ∃ e rest, (s.withFetchWord nbits w).schedule = e :: rest ∧ rest = s.schedule ∧
      step (s.withFetchWord nbits w) =
        exec i { s.withFetchWord nbits w with schedule := s.schedule }

/-- R91, R92, R93, R96: the written-out bytes of `T0` decode to the instructions they stand for. -/
def Obligations.WrittenBytesDecode : Prop :=
  decode .t0 .a [.byte 0xA5#8] = .ok .activate ∧
  decode .t0 .a [.byte 0x5A#8] = .ok (.actIgnored 0x5A#8) ∧
  decode .t0 .c [.byte 0x5A#8, .byte 0x5A#8, .byte 0x01#8, .idle, .idle] = .ok .runApp ∧
  decode .t0 .c [.byte 0x5A#8, .byte 0x5A#8, .byte 0x02#8, .byte 0x99#8, .idle, .idle] =
    .ok .enterProg ∧
  decode .t0 .c [.byte 0x5A#8, .byte 0x11#8, .byte 0x5A#8, .byte 0x5A#8, .byte 0x03#8, .idle,
    .idle] = .ok .reboot ∧
  decode .t0 .c [.byte 0x5A#8, .byte 0x5A#8, .byte 0x7E#8, .idle, .idle] =
    .ok (.cmdIgnored 0x7E#8) ∧
  decode .t0 .c [.idle, .idle] = .ok .emptyFrame ∧
  decode .t0 .p [.byte 0x5A#8] = .ok (.imageByte 0x5A#8)

/-- R92, R95, R96: decode and encode agree, and a frame decodes by its first payload byte alone,
whatever noise precedes its start sequence and whatever bytes follow the opcode. -/
def Obligations.DecodeEncodeAndNoisyFrames : Prop :=
  ∀ p : Params, p.valid = true →
    (∀ i f syms, i.wellFormed p = true → encode p i = some (f, syms) → decode p f syms = .ok i) ∧
    (∀ noise payload : List Byte, noise.foldl (nextFrame p) .idle = .idle →
      payload.length ≤ 256 →
      decode p .c (noise.map .byte ++ frameSymbols p payload) =
        .ok (match payload with
          | [] => .emptyFrame
          | c :: _ =>
            if c = p.cmdRunApp then .runApp
            else if c = p.cmdEnterProg then .enterProg
            else if c = p.cmdReboot then .reboot
            else .cmdIgnored c))

/-- R60, R61, R94: words are little-endian in the buffer and in flash, and the opcode is
`BUF[0][7:0]`. A byte past the address space is a free value (log entry 10), whose place in a word is
the same. -/
def Obligations.WordsAreLittleEndian : Prop :=
  ∀ s : State,
    (∀ k, k < 256 →
      s.bufByte k = BitVec.extractLsb' (8 * (k % 4)) 8 (s.bufWord (k / 4))) ∧
    s.opcode = BitVec.extractLsb' 0 8 (s.bufWord 0) ∧
    (∀ a, a < 4294967296 → memRead1 s a = s.flash.read a) ∧
    ∀ a k, k < 4 → memRead1 s (a + k) = BitVec.extractLsb' (8 * k) 8 (memRead4 s a)

/-! ### Whole-machine rules -/

/-- The invariant holds right after reset. -/
def Obligations.ResetMeetsInvariant : Prop := State.reset.Inv

/-- R22, R27, R29 to R33, R35, R45, R49, R178, R258: every step keeps the invariant of the block,
from every state that meets it, whatever is scheduled. -/
def Obligations.StepKeepsInvariant : Prop :=
  ∀ s t : State, s.Inv → step s = .next t → t.Inv

/-- R37, R193, R222, R256, R264: in a terminal state every step but `RESET` changes nothing but the
schedule (the model's own, log entry 1), a `STEP` or handler is not enabled, and `RESET` leaves it. -/
def Obligations.TerminalStatesFrozenUntilReset : Prop :=
  ∀ (s t : State) (e : RunStep) (rest : List RunStep), ¬ s.live →
    s.schedule = e :: rest → step s = .next t →
    (e ≠ .reset → t = { s with schedule := rest } ∧
      e ∉ [.step, .irqHt, .irqTc, .irqTe, .irqIdle, .irqTim]) ∧
    (e = .reset → t.live ∧ t.AtReset)

/-- R160, R72, R79, R157: a step changes a byte of flash only at `P_ERASE` or `P_WRITE` in
ProgrammerMode, only inside `[APP_BASE, APP_LIMIT)`, and never a byte of the bootloader's own code. -/
def Obligations.FlashEngineIsSoleMutator : Prop :=
  ∀ s t : State, s.Inv → step s = .next t → ∀ a, t.flash.read a ≠ s.flash.read a →
    (s.seq = .pErase ∨ s.seq = .pWrite) ∧ s.mode = .programmerMode ∧ s.halted = false ∧
    s.params.appBase.toNat ≤ a ∧ a < s.params.appLimit.toNat ∧
    ∀ r ∈ s.params.bootCode, r.holds a = false

/-- R81: `RESET`, the reboot and the halt leave every byte of flash. -/
def Obligations.FlashSurvivesResetRebootHalt : Prop :=
  ∀ (s t : State) (i : Instr),
    i ∈ [.reset, .warmReset, .rebootOp, .selfReset, .stepBJump, .te, .irqTe] →
    exec i s = .next t → ∀ a, t.flash.read a = s.flash.read a

/-- R176: nothing returns `SUP` to Armed but `RESET` and the warm reset of the reboot step. -/
def Obligations.SupervisorNeverRearms : Prop :=
  ∀ (s t : State) (e : RunStep), runSteps [e] s = .next t → s.sup ≠ .armed → t.sup = .armed →
    e = .reset ∨ (e = .step ∧ s.seq = .bJump)

/-- R200, R202: the transitions between modes, and no others. -/
def Obligations.ModeTransitions : Prop :=
  ∀ (s t : State) (e : RunStep), s.Inv → runSteps [e] s = .next t → t.mode ≠ s.mode →
    (s.mode = .awaitingActivation ∧ t.mode = .commandAndControl ∧
      e = .rx s.params.activationByte) ∨
    (s.mode = .commandAndControl ∧ t.mode = .programmerMode ∧ e = .step ∧ s.seq = .gArm) ∨
    (s.mode = .programmerMode ∧ t.mode = .commandAndControl ∧ e = .step ∧ s.seq = .eFallback) ∨
    (t.mode = .awaitingActivation ∧ (e = .reset ∨ (e = .step ∧ s.seq = .bJump)))

/-- R45: a received byte changes the buffer only through the one producer that is active: the DMA
while `RX_DMA` and `DMA_EN` are 1, the polled receiver at `C_RECV` while `RX_DMA` is 0. -/
def Obligations.OneProducerStoresIntoBuffer : Prop :=
  ∀ (s t : State) (b : Byte), s.Inv → exec (.rx b) s = .next t → t.buf ≠ s.buf →
    (s.rxDma = true ∧ s.dmaEn = true ∧ s.seq ≠ .cRecv ∧ captureSeq s.seq = true) ∨
    (s.rxDma = false ∧ s.dmaEn = false ∧ s.seq = .cRecv ∧ s.mode = .commandAndControl)

/-- R62, R132 to R134: a stream of bytes that fits the round is stored in order from the channel's
position; the flags rise where the position passes 128 and reaches 256. -/
def Obligations.CaptureStreamFillsBuffer : Prop :=
  ∀ (s : State) (d : List Byte), s.live → s.rxEn = true → s.rxDma = true → s.dmaEn = true →
    s.dmaIdx + d.length ≤ 256 →
    ∃ t, runSteps (d.map .rx) s = .next t ∧
      t = { s with
        idleCnt := if d = [] then s.idleCnt else 0
        dmaIdx := s.dmaIdx + d.length
        htif := if s.dmaIdx < 128 ∧ 128 ≤ s.dmaIdx + d.length then true else s.htif
        tcif := if s.dmaIdx < 256 ∧ s.dmaIdx + d.length = 256 then true else s.tcif
        buf := t.buf } ∧
      (∀ k, (h : k < d.length) → t.bufByte (s.dmaIdx + k) = d[k]) ∧
      ∀ j, j < s.dmaIdx ∨ s.dmaIdx + d.length ≤ j → t.bufByte j = s.bufByte j

/-- R177: on a run from reset with no activation byte and every tick served before the next, the
hand-off is invoked by the handler of the `TIMEOUT_TICKS`-th tick and not before, whatever bytes, idle
frames, transfer errors and `STEP`s stand between. Before it only `REMAIN` and a waiting tick's `TIF`
have changed. -/
def Obligations.ExactlyTimeoutTicksToHandOff : Prop :=
  ∀ (s : State) (sch : List RunStep), s.params.valid = true → s.AtReset →
    ticksServed s.params false sch = true →
    (sch.count .irqTim < s.params.timeoutTicks →
      runSteps sch s = .next { s with
        remain := s.params.timeoutTicks - sch.count .irqTim
        tif := decide (sch.count .irqTim < sch.count .tick) }) ∧
    ∀ pre, sch = pre ++ [.irqTim] → pre.count .irqTim + 1 = s.params.timeoutTicks →
      (s.flash.word s.params.appBase.toNat = s.params.spSentinel →
        runSteps sch s = .next { s with
          remain := 0, sup := .expired, seq := .gone
          coreSp := s.params.spSentinel
          corePc := s.flash.word (s.params.appBase.toNat + 4)
          handoff := some
            { base := s.params.appBase, sp := s.params.spSentinel,
              entry := s.flash.word (s.params.appBase.toNat + 4) } }) ∧
      (s.flash.word s.params.appBase.toNat ≠ s.params.spSentinel →
        runSteps sch s = .next { s with
          remain := 0, sup := .expired
          notFounds := s.notFounds ++ [s.params.appBase] })

/-- R161 (1): doing the two commits of a page twice with the same buffer leaves the same state as
doing them once. -/
def Obligations.PageCommitIsIdempotent : Prop :=
  ∀ (s : State) (a : Addr), s.flash.wf = true → a.toNat % 256 = 0 →
    s.params.appBase.toNat ≤ a.toNat → a.toNat + 256 ≤ s.params.appLimit.toNat →
    ∃ t1 t2 t3, exec (.commitHalfPage a .first) s = .next t1 ∧
      exec (.commitHalfPage (a + 128#32) .second) t1 = .next t2 ∧
      exec (.commitHalfPage a .first) t2 = .next t3 ∧
      exec (.commitHalfPage (a + 128#32) .second) t3 = .next t2

/-- R161 (2): a committed half reads back as the buffer's half. -/
def Obligations.CommittedHalfReadsBack : Prop :=
  ∀ (s : State) (a : Addr), s.flash.wf = true → a.toNat % 256 = 0 →
    s.params.appBase.toNat ≤ a.toNat → a.toNat + 256 ≤ s.params.appLimit.toNat →
    ∃ t1 t2, exec (.commitHalfPage a .first) s = .next t1 ∧
      exec (.commitHalfPage (a + 128#32) .second) t1 = .next t2 ∧
      ∀ k, k < 128 →
        memRead1 t1 (a.toNat + k) = s.bufByte k ∧
        memRead1 t2 (a.toNat + k) = s.bufByte k ∧
        memRead1 t2 (a.toNat + 128 + k) = s.bufByte (128 + k)

/-- R286: every `V4` step is also a `V3` step. -/
def Obligations.MergedCompletionIsOverwrite : Prop :=
  ∀ (e : RunStep) (s : State), marked .v4 e s = true → marked .v3 e s = true

/-- The runs of a schedule held in the state are the runs of its steps (log entry 1). -/
def Obligations.ScheduledRunIsStepRun : Prop :=
  ∀ (sch : List RunStep) (s t : State), s.schedule = [] → runSteps sch s = .next t →
    Host.Core.run Sys2Proof.core sch.length { s with schedule := sch } = .next t

/-- R92, R110 to R123: on any symbols of the link that scan as a command frame, `receive_command`
captures exactly the frame's payload, in order from `BUFB[0]`, and returns at the dispatch, where the
next step runs the instruction the symbols decode to. That the row receive_command runs its span over
the state's schedule is log entry 15 (the schedule is entry 1's). The runs covered are those of R102's
link symbols: each `IDLE` is served at once and the main context polls only after the last symbol. That
the next step is fetched as the row the frame decodes to is log entry 14. -/
def Obligations.ReceiverImplementsFormatC : Prop :=
  ∀ (s : State) (syms : List LinkSymbol) (payload : List Byte),
    s.seq = .cEnter → s.halted = false → s.mode = .commandAndControl → s.rxEn = true →
    s.rxDma = false → s.schedule = linkRun syms ++ [.step] →
    scanFrame s.params .idle [] 0 syms = .ok payload →
    ∃ t i, exec .receiveCommand s = .next t ∧
      t = { s with
        frame := (linkBytes syms).foldl (nextFrame s.params) .idle, buf := t.buf
        idleCnt := 2, msgDone := true, idleIe := false, idleIf := false
        rxLen := payload.length, seq := .cDispatch, schedule := [] } ∧
      (∀ k, (h : k < payload.length) → t.bufByte k = payload[k]) ∧
      (∀ k, payload.length ≤ k → t.bufByte k = s.bufByte k) ∧
      decode s.params .c syms = .ok i ∧ fetch .step t = some i

/-- R298: what a clean session gives. -/
def Obligations.CleanSessionWritesImage : Prop :=
  ∀ (s : State) (sch : List RunStep) (tr : SessionTrace), s.Inv → s.seq = .gArm →
    cleanSession (.step :: sch) s = some tr → tr.final.seq = .cEnter →
    let base := s.params.appBase.toNat
    let h := tr.stored.length / 128
    let f := tr.final
    (∀ n, (hn : n < 128 * h) →
      f.flash.read (base + n) = tr.stored[n]'(by omega)) ∧
    tr.ops = (List.range h).flatMap (halfOps base) ∧
    (h % 2 = 1 → ∀ k, k < 128 → f.flash.read (base + 128 * h + k) = s.params.erasedByte) ∧
    (∀ a, ¬ (base ≤ a ∧ a < base + 256 * ((h + 1) / 2)) → f.flash.read a = s.flash.read a) ∧
    f.reports = s.reports ++ [h / 2] ∧
    f.curAddr = s.params.appBase ∧ f.curPages = 0 ∧ f.capstat = .none ∧ f.msgDone = false ∧
    (∀ k, f.bufByte k = 0x00#8) ∧ f.dmaEn = false ∧ f.rxDma = false
end

