-- ==== Sys2Proof/Laws/Memory.lean ====
section
/-! SUPPORT. The laws of flash memory: read after write, the canonical form, and what a write of
consecutive bytes leaves. -/

namespace Sys2Proof.Machine

/-- A tighter lower bound is a stronger form. -/
theorem Memory.wfFrom_mono {lo lo' : Nat} (h : lo ≤ lo') (m : Memory)
    (hm : Memory.wfFrom lo' m = true) : Memory.wfFrom lo m = true := by
  cases m with
  | nil => rfl
  | cons c rest =>
    obtain ⟨k, v⟩ := c
    simp only [Memory.wfFrom, Bool.and_eq_true, decide_eq_true_eq] at hm ⊢
    exact ⟨⟨⟨h.trans hm.1.1.1, hm.1.1.2⟩, hm.1.2⟩, hm.2⟩

/-- Below the lower bound nothing is listed. -/
theorem Memory.read_below {lo a : Nat} (m : Memory) (hm : Memory.wfFrom lo m = true) (h : a < lo) :
    m.read a = Config.unwrittenByte := by
  induction m generalizing lo with
  | nil => rfl
  | cons c rest ih =>
    obtain ⟨k, v⟩ := c
    simp only [Memory.wfFrom, Bool.and_eq_true, decide_eq_true_eq] at hm
    have hk : k ≠ a := by omega
    simp only [Memory.read, if_neg hk]
    exact ih hm.2 (by omega)

/-- A write reads back at its own address. -/
@[simp] theorem Memory.read_write_same (m : Memory) (lo : Nat) (hm : Memory.wfFrom lo m = true)
    (a : Nat) (b : Byte) : (m.write a b).read a = b := by
  induction m generalizing lo with
  | nil => by_cases hb : b = Config.unwrittenByte <;> simp [Memory.write, Memory.read, hb]
  | cons c rest ih =>
    obtain ⟨k, v⟩ := c
    simp only [Memory.wfFrom, Bool.and_eq_true, decide_eq_true_eq] at hm
    by_cases hk : k < a
    · have hne : k ≠ a := by omega
      simp only [Memory.write, if_pos hk, Memory.read, if_neg hne]
      exact ih _ hm.2
    · by_cases hb : b = Config.unwrittenByte
      · by_cases he : k = a
        · subst he
          simp only [Memory.write, if_neg hk, if_pos hb, if_true]
          rw [Memory.read_below rest hm.2 (by omega), hb]
        · have hka : a < k := by omega
          simp only [Memory.write, if_neg hk, if_pos hb, if_neg he, Memory.read]
          rw [Memory.read_below rest hm.2 (by omega), hb]
      · simp [Memory.write, hk, hb, Memory.read]

/-- A write leaves every other address alone. -/
theorem Memory.read_write_other (m : Memory) (lo : Nat) (hm : Memory.wfFrom lo m = true)
    {a x : Nat} (b : Byte) (h : x ≠ a) : (m.write a b).read x = m.read x := by
  induction m generalizing lo with
  | nil =>
    by_cases hb : b = Config.unwrittenByte <;> simp [Memory.write, Memory.read, hb, h.symm]
  | cons c rest ih =>
    obtain ⟨k, v⟩ := c
    simp only [Memory.wfFrom, Bool.and_eq_true, decide_eq_true_eq] at hm
    by_cases hk : k < a
    · simp only [Memory.write, if_pos hk, Memory.read, ih _ hm.2]
    · by_cases he : k = a
      · subst he
        by_cases hb : b = Config.unwrittenByte <;>
          simp [Memory.write, hb, Memory.read, h.symm]
      · by_cases hb : b = Config.unwrittenByte <;>
          simp [Memory.write, hk, hb, he, Memory.read, h.symm]

/-- The byte an address reads as after a write. -/
theorem Memory.read_write {m : Memory} (hm : m.wf = true) (a x : Nat) (b : Byte) :
    (m.write a b).read x = if x = a then b else m.read x := by
  by_cases h : x = a
  · rw [if_pos h, h]; exact Memory.read_write_same m 0 hm a b
  · rw [if_neg h]; exact Memory.read_write_other m 0 hm b h

/-- A write inside the address space keeps the form, above any bound it respects. -/
theorem Memory.write_wfFrom (m : Memory) (lo : Nat) (hm : Memory.wfFrom lo m = true) {a : Nat}
    (b : Byte) (hlo : lo ≤ a) (ha : a < Config.flashSpace) :
    Memory.wfFrom lo (m.write a b) = true := by
  induction m generalizing lo with
  | nil => by_cases hb : b = Config.unwrittenByte <;> simp [Memory.write, Memory.wfFrom, hb, hlo, ha]
  | cons c rest ih =>
    obtain ⟨k, v⟩ := c
    simp only [Memory.wfFrom, Bool.and_eq_true, decide_eq_true_eq] at hm
    by_cases hk : k < a
    · simp only [Memory.write, if_pos hk, Memory.wfFrom, Bool.and_eq_true, decide_eq_true_eq]
      exact ⟨hm.1, ih _ hm.2 (by omega)⟩
    · by_cases he : k = a
      · subst he
        by_cases hb : b = Config.unwrittenByte
        · simp only [Memory.write, if_neg hk, if_pos hb, if_true]
          exact Memory.wfFrom_mono (by omega) rest hm.2
        · simp [Memory.write, hb, Memory.wfFrom, hlo, ha, hm.2]
      · by_cases hb : b = Config.unwrittenByte
        · simp only [Memory.write, if_neg hk, if_pos hb, if_neg he, Memory.wfFrom,
            Bool.and_eq_true, decide_eq_true_eq]
          exact hm
        · have hka : a + 1 ≤ k := by omega
          simp only [Memory.write, if_neg hk, if_neg hb, if_neg he, Memory.wfFrom,
            Bool.and_eq_true, decide_eq_true_eq, bne_iff_ne, ne_eq]
          exact ⟨⟨⟨hlo, ha⟩, hb⟩, ⟨⟨hka, hm.1.1.2⟩, by simpa using hm.1.2⟩, hm.2⟩

/-- A write inside the address space keeps the canonical form. -/
theorem Memory.write_wf {m : Memory} (hm : m.wf = true) {a : Nat} (b : Byte)
    (ha : a < Config.flashSpace) : (m.write a b).wf = true :=
  Memory.write_wfFrom m 0 hm b (Nat.zero_le a) ha

/-- A write of consecutive bytes inside the address space keeps the canonical form. -/
theorem Memory.writeBytes_wf {m : Memory} (hm : m.wf = true) (a : Nat) (bs : List Byte)
    (ha : a + bs.length ≤ Config.flashSpace) : (m.writeBytes a bs).wf = true := by
  induction bs generalizing m a with
  | nil => exact hm
  | cons b bs ih =>
    simp only [List.length_cons] at ha
    exact ih (Memory.write_wf hm b (by omega)) (a + 1) (by omega)

/-- What an address reads as after a write of consecutive bytes. -/
theorem Memory.read_writeBytes {m : Memory} (hm : m.wf = true) (a : Nat) (bs : List Byte)
    (ha : a + bs.length ≤ Config.flashSpace) (x : Nat) :
    (m.writeBytes a bs).read x =
      if a ≤ x ∧ x < a + bs.length then (bs[x - a]?).getD 0#8 else m.read x := by
  induction bs generalizing m a with
  | nil =>
    have h : ¬(a ≤ x ∧ x < a + ([] : List Byte).length) := by simp
    rw [if_neg h]; rfl
  | cons b bs ih =>
    simp only [List.length_cons] at ha ⊢
    have hw := Memory.write_wf hm b (a := a) (by omega)
    rw [Memory.writeBytes, ih hw (a + 1) (by omega), Memory.read_write hm]
    by_cases h1 : a + 1 ≤ x ∧ x < a + 1 + bs.length
    · have h2 : a ≤ x ∧ x < a + (bs.length + 1) := by omega
      have h3 : x - a = (x - (a + 1)) + 1 := by omega
      rw [if_pos h1, if_pos h2, h3, List.getElem?_cons_succ]
    · by_cases h4 : x = a
      · subst h4
        simp
      · have h2 : ¬(a ≤ x ∧ x < a + (bs.length + 1)) := by omega
        rw [if_neg h1, if_neg h2, if_neg h4]

/-- Two memories in canonical form that read the same are the same list. -/
theorem Memory.ext_wfFrom {lo : Nat} {m n : Memory} (hm : Memory.wfFrom lo m = true)
    (hn : Memory.wfFrom lo n = true) (h : ∀ a, m.read a = n.read a) : m = n := by
  induction m generalizing lo n with
  | nil =>
    cases n with
    | nil => rfl
    | cons c rest =>
      obtain ⟨k, v⟩ := c
      simp only [Memory.wfFrom, Bool.and_eq_true, decide_eq_true_eq] at hn
      have := h k
      simp only [Memory.read, if_true] at this
      exact absurd this.symm (by simpa using hn.1.2)
  | cons c rest ih =>
    obtain ⟨k, v⟩ := c
    simp only [Memory.wfFrom, Bool.and_eq_true, decide_eq_true_eq] at hm
    have hv : v ≠ Config.unwrittenByte := by simpa using hm.1.2
    cases n with
    | nil =>
      have := h k
      simp only [Memory.read, if_true] at this
      exact absurd this hv
    | cons d rest' =>
      obtain ⟨k', v'⟩ := d
      simp only [Memory.wfFrom, Bool.and_eq_true, decide_eq_true_eq] at hn
      have hv' : v' ≠ Config.unwrittenByte := by simpa using hn.1.2
      have hkk : k = k' := by
        rcases Nat.lt_trichotomy k k' with hlt | he | hgt
        · have hk := h k
          simp only [Memory.read, if_true, if_neg (show k' ≠ k by omega)] at hk
          rw [Memory.read_below rest' hn.2 (by omega)] at hk
          exact absurd hk hv
        · exact he
        · have hk := h k'
          simp only [Memory.read, if_true, if_neg (show k ≠ k' by omega)] at hk
          rw [Memory.read_below rest hm.2 (by omega)] at hk
          exact absurd hk.symm hv'
      subst hkk
      have hvv : v = v' := by simpa [Memory.read] using h k
      have hrest : rest = rest' := by
        refine ih hm.2 hn.2 (fun a => ?_)
        by_cases ha : k = a
        · subst ha
          rw [Memory.read_below rest hm.2 (by omega), Memory.read_below rest' hn.2 (by omega)]
        · simpa [Memory.read, ha] using h a
      rw [hvv, hrest]

/-- Equal reads make equal memories, in canonical form. -/
theorem Memory.ext_wf {m n : Memory} (hm : m.wf = true) (hn : n.wf = true)
    (h : ∀ a, m.read a = n.read a) : m = n := Memory.ext_wfFrom hm hn h

end Sys2Proof.Machine
end

