-- ==== Sys2Proof/Laws/State.lean ====
section
/-! SUPPORT. What each named update of the state leaves in each field: one lemma per field per update,
so that no later proof unfolds an update. -/

namespace Sys2Proof.Machine

/-! ### `setBufByte` -/

@[simp] theorem setBufByte_params (s : State) (k : Nat) (b : Byte) :
    (s.setBufByte k b).params = s.params := rfl
@[simp] theorem setBufByte_seq (s : State) (k : Nat) (b : Byte) :
    (s.setBufByte k b).seq = s.seq := rfl
@[simp] theorem setBufByte_latch (s : State) (k : Nat) (b : Byte) :
    (s.setBufByte k b).latch = s.latch := rfl
@[simp] theorem setBufByte_mode (s : State) (k : Nat) (b : Byte) :
    (s.setBufByte k b).mode = s.mode := rfl
@[simp] theorem setBufByte_coreSp (s : State) (k : Nat) (b : Byte) :
    (s.setBufByte k b).coreSp = s.coreSp := rfl
@[simp] theorem setBufByte_corePc (s : State) (k : Nat) (b : Byte) :
    (s.setBufByte k b).corePc = s.corePc := rfl
@[simp] theorem setBufByte_handoff (s : State) (k : Nat) (b : Byte) :
    (s.setBufByte k b).handoff = s.handoff := rfl
@[simp] theorem setBufByte_capstat (s : State) (k : Nat) (b : Byte) :
    (s.setBufByte k b).capstat = s.capstat := rfl
@[simp] theorem setBufByte_msgDone (s : State) (k : Nat) (b : Byte) :
    (s.setBufByte k b).msgDone = s.msgDone := rfl
@[simp] theorem setBufByte_idleCnt (s : State) (k : Nat) (b : Byte) :
    (s.setBufByte k b).idleCnt = s.idleCnt := rfl
@[simp] theorem setBufByte_frame (s : State) (k : Nat) (b : Byte) :
    (s.setBufByte k b).frame = s.frame := rfl
@[simp] theorem setBufByte_rxLen (s : State) (k : Nat) (b : Byte) :
    (s.setBufByte k b).rxLen = s.rxLen := rfl
@[simp] theorem setBufByte_curAddr (s : State) (k : Nat) (b : Byte) :
    (s.setBufByte k b).curAddr = s.curAddr := rfl
@[simp] theorem setBufByte_curPages (s : State) (k : Nat) (b : Byte) :
    (s.setBufByte k b).curPages = s.curPages := rfl
@[simp] theorem setBufByte_sup (s : State) (k : Nat) (b : Byte) :
    (s.setBufByte k b).sup = s.sup := rfl
@[simp] theorem setBufByte_remain (s : State) (k : Nat) (b : Byte) :
    (s.setBufByte k b).remain = s.remain := rfl
@[simp] theorem setBufByte_rxEn (s : State) (k : Nat) (b : Byte) :
    (s.setBufByte k b).rxEn = s.rxEn := rfl
@[simp] theorem setBufByte_rxDma (s : State) (k : Nat) (b : Byte) :
    (s.setBufByte k b).rxDma = s.rxDma := rfl
@[simp] theorem setBufByte_idleIe (s : State) (k : Nat) (b : Byte) :
    (s.setBufByte k b).idleIe = s.idleIe := rfl
@[simp] theorem setBufByte_idleIf (s : State) (k : Nat) (b : Byte) :
    (s.setBufByte k b).idleIf = s.idleIf := rfl
@[simp] theorem setBufByte_dmaEn (s : State) (k : Nat) (b : Byte) :
    (s.setBufByte k b).dmaEn = s.dmaEn := rfl
@[simp] theorem setBufByte_dmaIdx (s : State) (k : Nat) (b : Byte) :
    (s.setBufByte k b).dmaIdx = s.dmaIdx := rfl
@[simp] theorem setBufByte_htif (s : State) (k : Nat) (b : Byte) :
    (s.setBufByte k b).htif = s.htif := rfl
@[simp] theorem setBufByte_tcif (s : State) (k : Nat) (b : Byte) :
    (s.setBufByte k b).tcif = s.tcif := rfl
@[simp] theorem setBufByte_teif (s : State) (k : Nat) (b : Byte) :
    (s.setBufByte k b).teif = s.teif := rfl
@[simp] theorem setBufByte_tif (s : State) (k : Nat) (b : Byte) :
    (s.setBufByte k b).tif = s.tif := rfl
@[simp] theorem setBufByte_halted (s : State) (k : Nat) (b : Byte) :
    (s.setBufByte k b).halted = s.halted := rfl
@[simp] theorem setBufByte_fault (s : State) (k : Nat) (b : Byte) :
    (s.setBufByte k b).fault = s.fault := rfl
@[simp] theorem setBufByte_reports (s : State) (k : Nat) (b : Byte) :
    (s.setBufByte k b).reports = s.reports := rfl
@[simp] theorem setBufByte_notFounds (s : State) (k : Nat) (b : Byte) :
    (s.setBufByte k b).notFounds = s.notFounds := rfl
@[simp] theorem setBufByte_reboots (s : State) (k : Nat) (b : Byte) :
    (s.setBufByte k b).reboots = s.reboots := rfl
@[simp] theorem setBufByte_buf (s : State) (k : Nat) (b : Byte) :
    (s.setBufByte k b).buf = s.buf.setIfInBounds k b := rfl
@[simp] theorem setBufByte_flash (s : State) (k : Nat) (b : Byte) :
    (s.setBufByte k b).flash = s.flash := rfl
@[simp] theorem setBufByte_schedule (s : State) (k : Nat) (b : Byte) :
    (s.setBufByte k b).schedule = s.schedule := rfl
@[simp] theorem setBufByte_draws (s : State) (k : Nat) (b : Byte) :
    (s.setBufByte k b).draws = s.draws := rfl

/-! ### `clearBuffer` -/

@[simp] theorem clearBuffer_params (s : State) : (clearBuffer s).params = s.params := rfl
@[simp] theorem clearBuffer_seq (s : State) : (clearBuffer s).seq = s.seq := rfl
@[simp] theorem clearBuffer_latch (s : State) : (clearBuffer s).latch = s.latch := rfl
@[simp] theorem clearBuffer_mode (s : State) : (clearBuffer s).mode = s.mode := rfl
@[simp] theorem clearBuffer_coreSp (s : State) : (clearBuffer s).coreSp = s.coreSp := rfl
@[simp] theorem clearBuffer_corePc (s : State) : (clearBuffer s).corePc = s.corePc := rfl
@[simp] theorem clearBuffer_handoff (s : State) : (clearBuffer s).handoff = s.handoff := rfl
@[simp] theorem clearBuffer_capstat (s : State) : (clearBuffer s).capstat = s.capstat := rfl
@[simp] theorem clearBuffer_msgDone (s : State) : (clearBuffer s).msgDone = s.msgDone := rfl
@[simp] theorem clearBuffer_idleCnt (s : State) : (clearBuffer s).idleCnt = s.idleCnt := rfl
@[simp] theorem clearBuffer_frame (s : State) : (clearBuffer s).frame = s.frame := rfl
@[simp] theorem clearBuffer_rxLen (s : State) : (clearBuffer s).rxLen = s.rxLen := rfl
@[simp] theorem clearBuffer_curAddr (s : State) : (clearBuffer s).curAddr = s.curAddr := rfl
@[simp] theorem clearBuffer_curPages (s : State) : (clearBuffer s).curPages = s.curPages := rfl
@[simp] theorem clearBuffer_sup (s : State) : (clearBuffer s).sup = s.sup := rfl
@[simp] theorem clearBuffer_remain (s : State) : (clearBuffer s).remain = s.remain := rfl
@[simp] theorem clearBuffer_rxEn (s : State) : (clearBuffer s).rxEn = s.rxEn := rfl
@[simp] theorem clearBuffer_rxDma (s : State) : (clearBuffer s).rxDma = s.rxDma := rfl
@[simp] theorem clearBuffer_idleIe (s : State) : (clearBuffer s).idleIe = s.idleIe := rfl
@[simp] theorem clearBuffer_idleIf (s : State) : (clearBuffer s).idleIf = s.idleIf := rfl
@[simp] theorem clearBuffer_dmaEn (s : State) : (clearBuffer s).dmaEn = s.dmaEn := rfl
@[simp] theorem clearBuffer_dmaIdx (s : State) : (clearBuffer s).dmaIdx = s.dmaIdx := rfl
@[simp] theorem clearBuffer_htif (s : State) : (clearBuffer s).htif = s.htif := rfl
@[simp] theorem clearBuffer_tcif (s : State) : (clearBuffer s).tcif = s.tcif := rfl
@[simp] theorem clearBuffer_teif (s : State) : (clearBuffer s).teif = s.teif := rfl
@[simp] theorem clearBuffer_tif (s : State) : (clearBuffer s).tif = s.tif := rfl
@[simp] theorem clearBuffer_halted (s : State) : (clearBuffer s).halted = s.halted := rfl
@[simp] theorem clearBuffer_fault (s : State) : (clearBuffer s).fault = s.fault := rfl
@[simp] theorem clearBuffer_reports (s : State) : (clearBuffer s).reports = s.reports := rfl
@[simp] theorem clearBuffer_notFounds (s : State) : (clearBuffer s).notFounds = s.notFounds := rfl
@[simp] theorem clearBuffer_reboots (s : State) : (clearBuffer s).reboots = s.reboots := rfl
@[simp] theorem clearBuffer_buf (s : State) :
    (clearBuffer s).buf = Vector.replicate Config.bufBytes 0#8 := rfl
@[simp] theorem clearBuffer_flash (s : State) : (clearBuffer s).flash = s.flash := rfl
@[simp] theorem clearBuffer_schedule (s : State) : (clearBuffer s).schedule = s.schedule := rfl
@[simp] theorem clearBuffer_draws (s : State) : (clearBuffer s).draws = s.draws := rfl

/-! ### `drawBuffer` -/

@[simp] theorem drawBuffer_params (s : State) :
    (drawBuffer s).params = s.params := by simp only [drawBuffer]
@[simp] theorem drawBuffer_seq (s : State) : (drawBuffer s).seq = s.seq := by simp only [drawBuffer]
@[simp] theorem drawBuffer_latch (s : State) :
    (drawBuffer s).latch = s.latch := by simp only [drawBuffer]
@[simp] theorem drawBuffer_mode (s : State) :
    (drawBuffer s).mode = s.mode := by simp only [drawBuffer]
@[simp] theorem drawBuffer_coreSp (s : State) :
    (drawBuffer s).coreSp = s.coreSp := by simp only [drawBuffer]
@[simp] theorem drawBuffer_corePc (s : State) :
    (drawBuffer s).corePc = s.corePc := by simp only [drawBuffer]
@[simp] theorem drawBuffer_handoff (s : State) :
    (drawBuffer s).handoff = s.handoff := by simp only [drawBuffer]
@[simp] theorem drawBuffer_capstat (s : State) :
    (drawBuffer s).capstat = s.capstat := by simp only [drawBuffer]
@[simp] theorem drawBuffer_msgDone (s : State) :
    (drawBuffer s).msgDone = s.msgDone := by simp only [drawBuffer]
@[simp] theorem drawBuffer_idleCnt (s : State) :
    (drawBuffer s).idleCnt = s.idleCnt := by simp only [drawBuffer]
@[simp] theorem drawBuffer_frame (s : State) :
    (drawBuffer s).frame = s.frame := by simp only [drawBuffer]
@[simp] theorem drawBuffer_rxLen (s : State) :
    (drawBuffer s).rxLen = s.rxLen := by simp only [drawBuffer]
@[simp] theorem drawBuffer_curAddr (s : State) :
    (drawBuffer s).curAddr = s.curAddr := by simp only [drawBuffer]
@[simp] theorem drawBuffer_curPages (s : State) :
    (drawBuffer s).curPages = s.curPages := by simp only [drawBuffer]
@[simp] theorem drawBuffer_sup (s : State) : (drawBuffer s).sup = s.sup := by simp only [drawBuffer]
@[simp] theorem drawBuffer_remain (s : State) :
    (drawBuffer s).remain = s.remain := by simp only [drawBuffer]
@[simp] theorem drawBuffer_rxEn (s : State) :
    (drawBuffer s).rxEn = s.rxEn := by simp only [drawBuffer]
@[simp] theorem drawBuffer_rxDma (s : State) :
    (drawBuffer s).rxDma = s.rxDma := by simp only [drawBuffer]
@[simp] theorem drawBuffer_idleIe (s : State) :
    (drawBuffer s).idleIe = s.idleIe := by simp only [drawBuffer]
@[simp] theorem drawBuffer_idleIf (s : State) :
    (drawBuffer s).idleIf = s.idleIf := by simp only [drawBuffer]
@[simp] theorem drawBuffer_dmaEn (s : State) :
    (drawBuffer s).dmaEn = s.dmaEn := by simp only [drawBuffer]
@[simp] theorem drawBuffer_dmaIdx (s : State) :
    (drawBuffer s).dmaIdx = s.dmaIdx := by simp only [drawBuffer]
@[simp] theorem drawBuffer_htif (s : State) :
    (drawBuffer s).htif = s.htif := by simp only [drawBuffer]
@[simp] theorem drawBuffer_tcif (s : State) :
    (drawBuffer s).tcif = s.tcif := by simp only [drawBuffer]
@[simp] theorem drawBuffer_teif (s : State) :
    (drawBuffer s).teif = s.teif := by simp only [drawBuffer]
@[simp] theorem drawBuffer_tif (s : State) : (drawBuffer s).tif = s.tif := by simp only [drawBuffer]
@[simp] theorem drawBuffer_halted (s : State) :
    (drawBuffer s).halted = s.halted := by simp only [drawBuffer]
@[simp] theorem drawBuffer_fault (s : State) :
    (drawBuffer s).fault = s.fault := by simp only [drawBuffer]
@[simp] theorem drawBuffer_reports (s : State) :
    (drawBuffer s).reports = s.reports := by simp only [drawBuffer]
@[simp] theorem drawBuffer_notFounds (s : State) :
    (drawBuffer s).notFounds = s.notFounds := by simp only [drawBuffer]
@[simp] theorem drawBuffer_reboots (s : State) :
    (drawBuffer s).reboots = s.reboots := by simp only [drawBuffer]
@[simp] theorem drawBuffer_buf (s : State) :
    (drawBuffer s).buf = freeBytes s.draws := by simp only [drawBuffer]
@[simp] theorem drawBuffer_flash (s : State) :
    (drawBuffer s).flash = s.flash := by simp only [drawBuffer]
@[simp] theorem drawBuffer_schedule (s : State) :
    (drawBuffer s).schedule = s.schedule := by simp only [drawBuffer]
@[simp] theorem drawBuffer_draws (s : State) :
    (drawBuffer s).draws = s.draws + 1 := by simp only [drawBuffer]

/-! ### `afterRead` -/

@[simp] theorem afterRead_params (a : Nat) (s : State) :
    (afterRead a s).params = s.params := by unfold afterRead; split <;> rfl
@[simp] theorem afterRead_seq (a : Nat) (s : State) :
    (afterRead a s).seq = s.seq := by unfold afterRead; split <;> rfl
@[simp] theorem afterRead_latch (a : Nat) (s : State) :
    (afterRead a s).latch = s.latch := by unfold afterRead; split <;> rfl
@[simp] theorem afterRead_mode (a : Nat) (s : State) :
    (afterRead a s).mode = s.mode := by unfold afterRead; split <;> rfl
@[simp] theorem afterRead_coreSp (a : Nat) (s : State) :
    (afterRead a s).coreSp = s.coreSp := by unfold afterRead; split <;> rfl
@[simp] theorem afterRead_corePc (a : Nat) (s : State) :
    (afterRead a s).corePc = s.corePc := by unfold afterRead; split <;> rfl
@[simp] theorem afterRead_handoff (a : Nat) (s : State) :
    (afterRead a s).handoff = s.handoff := by unfold afterRead; split <;> rfl
@[simp] theorem afterRead_capstat (a : Nat) (s : State) :
    (afterRead a s).capstat = s.capstat := by unfold afterRead; split <;> rfl
@[simp] theorem afterRead_msgDone (a : Nat) (s : State) :
    (afterRead a s).msgDone = s.msgDone := by unfold afterRead; split <;> rfl
@[simp] theorem afterRead_idleCnt (a : Nat) (s : State) :
    (afterRead a s).idleCnt = s.idleCnt := by unfold afterRead; split <;> rfl
@[simp] theorem afterRead_frame (a : Nat) (s : State) :
    (afterRead a s).frame = s.frame := by unfold afterRead; split <;> rfl
@[simp] theorem afterRead_rxLen (a : Nat) (s : State) :
    (afterRead a s).rxLen = s.rxLen := by unfold afterRead; split <;> rfl
@[simp] theorem afterRead_curAddr (a : Nat) (s : State) :
    (afterRead a s).curAddr = s.curAddr := by unfold afterRead; split <;> rfl
@[simp] theorem afterRead_curPages (a : Nat) (s : State) :
    (afterRead a s).curPages = s.curPages := by unfold afterRead; split <;> rfl
@[simp] theorem afterRead_sup (a : Nat) (s : State) :
    (afterRead a s).sup = s.sup := by unfold afterRead; split <;> rfl
@[simp] theorem afterRead_remain (a : Nat) (s : State) :
    (afterRead a s).remain = s.remain := by unfold afterRead; split <;> rfl
@[simp] theorem afterRead_rxEn (a : Nat) (s : State) :
    (afterRead a s).rxEn = s.rxEn := by unfold afterRead; split <;> rfl
@[simp] theorem afterRead_rxDma (a : Nat) (s : State) :
    (afterRead a s).rxDma = s.rxDma := by unfold afterRead; split <;> rfl
@[simp] theorem afterRead_idleIe (a : Nat) (s : State) :
    (afterRead a s).idleIe = s.idleIe := by unfold afterRead; split <;> rfl
@[simp] theorem afterRead_idleIf (a : Nat) (s : State) :
    (afterRead a s).idleIf = s.idleIf := by unfold afterRead; split <;> rfl
@[simp] theorem afterRead_dmaEn (a : Nat) (s : State) :
    (afterRead a s).dmaEn = s.dmaEn := by unfold afterRead; split <;> rfl
@[simp] theorem afterRead_dmaIdx (a : Nat) (s : State) :
    (afterRead a s).dmaIdx = s.dmaIdx := by unfold afterRead; split <;> rfl
@[simp] theorem afterRead_htif (a : Nat) (s : State) :
    (afterRead a s).htif = s.htif := by unfold afterRead; split <;> rfl
@[simp] theorem afterRead_tcif (a : Nat) (s : State) :
    (afterRead a s).tcif = s.tcif := by unfold afterRead; split <;> rfl
@[simp] theorem afterRead_teif (a : Nat) (s : State) :
    (afterRead a s).teif = s.teif := by unfold afterRead; split <;> rfl
@[simp] theorem afterRead_tif (a : Nat) (s : State) :
    (afterRead a s).tif = s.tif := by unfold afterRead; split <;> rfl
@[simp] theorem afterRead_halted (a : Nat) (s : State) :
    (afterRead a s).halted = s.halted := by unfold afterRead; split <;> rfl
@[simp] theorem afterRead_fault (a : Nat) (s : State) :
    (afterRead a s).fault = s.fault := by unfold afterRead; split <;> rfl
@[simp] theorem afterRead_reports (a : Nat) (s : State) :
    (afterRead a s).reports = s.reports := by unfold afterRead; split <;> rfl
@[simp] theorem afterRead_notFounds (a : Nat) (s : State) :
    (afterRead a s).notFounds = s.notFounds := by unfold afterRead; split <;> rfl
@[simp] theorem afterRead_reboots (a : Nat) (s : State) :
    (afterRead a s).reboots = s.reboots := by unfold afterRead; split <;> rfl
@[simp] theorem afterRead_buf (a : Nat) (s : State) :
    (afterRead a s).buf = s.buf := by unfold afterRead; split <;> rfl
@[simp] theorem afterRead_flash (a : Nat) (s : State) :
    (afterRead a s).flash = s.flash := by unfold afterRead; split <;> rfl
@[simp] theorem afterRead_schedule (a : Nat) (s : State) :
    (afterRead a s).schedule = s.schedule := by unfold afterRead; split <;> rfl
@[simp] theorem afterRead_draws (a : Nat) (s : State) :
    (afterRead a s).draws = if a + 4 ≤ Config.flashSpace then s.draws else s.draws + 1 := by unfold afterRead; split <;> rfl

/-! ### `raise` -/

@[simp] theorem raise_params (c : Cause) (s : State) :
    (raise c s).params = s.params := by cases c <;> rfl
@[simp] theorem raise_latch (c : Cause) (s : State) :
    (raise c s).latch = s.latch := by cases c <;> rfl
@[simp] theorem raise_mode (c : Cause) (s : State) : (raise c s).mode = s.mode := by cases c <;> rfl
@[simp] theorem raise_coreSp (c : Cause) (s : State) :
    (raise c s).coreSp = s.coreSp := by cases c <;> rfl
@[simp] theorem raise_corePc (c : Cause) (s : State) :
    (raise c s).corePc = s.corePc := by cases c <;> rfl
@[simp] theorem raise_handoff (c : Cause) (s : State) :
    (raise c s).handoff = s.handoff := by cases c <;> rfl
@[simp] theorem raise_capstat (c : Cause) (s : State) :
    (raise c s).capstat = s.capstat := by cases c <;> rfl
@[simp] theorem raise_msgDone (c : Cause) (s : State) :
    (raise c s).msgDone = s.msgDone := by cases c <;> rfl
@[simp] theorem raise_idleCnt (c : Cause) (s : State) :
    (raise c s).idleCnt = s.idleCnt := by cases c <;> rfl
@[simp] theorem raise_frame (c : Cause) (s : State) :
    (raise c s).frame = s.frame := by cases c <;> rfl
@[simp] theorem raise_rxLen (c : Cause) (s : State) :
    (raise c s).rxLen = s.rxLen := by cases c <;> rfl
@[simp] theorem raise_curAddr (c : Cause) (s : State) :
    (raise c s).curAddr = s.curAddr := by cases c <;> rfl
@[simp] theorem raise_curPages (c : Cause) (s : State) :
    (raise c s).curPages = s.curPages := by cases c <;> rfl
@[simp] theorem raise_sup (c : Cause) (s : State) : (raise c s).sup = s.sup := by cases c <;> rfl
@[simp] theorem raise_remain (c : Cause) (s : State) :
    (raise c s).remain = s.remain := by cases c <;> rfl
@[simp] theorem raise_rxEn (c : Cause) (s : State) : (raise c s).rxEn = s.rxEn := by cases c <;> rfl
@[simp] theorem raise_rxDma (c : Cause) (s : State) :
    (raise c s).rxDma = s.rxDma := by cases c <;> rfl
@[simp] theorem raise_idleIe (c : Cause) (s : State) :
    (raise c s).idleIe = s.idleIe := by cases c <;> rfl
@[simp] theorem raise_idleIf (c : Cause) (s : State) :
    (raise c s).idleIf = s.idleIf := by cases c <;> rfl
@[simp] theorem raise_dmaEn (c : Cause) (s : State) :
    (raise c s).dmaEn = s.dmaEn := by cases c <;> rfl
@[simp] theorem raise_dmaIdx (c : Cause) (s : State) :
    (raise c s).dmaIdx = s.dmaIdx := by cases c <;> rfl
@[simp] theorem raise_htif (c : Cause) (s : State) : (raise c s).htif = s.htif := by cases c <;> rfl
@[simp] theorem raise_tcif (c : Cause) (s : State) : (raise c s).tcif = s.tcif := by cases c <;> rfl
@[simp] theorem raise_teif (c : Cause) (s : State) : (raise c s).teif = s.teif := by cases c <;> rfl
@[simp] theorem raise_tif (c : Cause) (s : State) : (raise c s).tif = s.tif := by cases c <;> rfl
@[simp] theorem raise_reports (c : Cause) (s : State) :
    (raise c s).reports = s.reports := by cases c <;> rfl
@[simp] theorem raise_reboots (c : Cause) (s : State) :
    (raise c s).reboots = s.reboots := by cases c <;> rfl
@[simp] theorem raise_buf (c : Cause) (s : State) : (raise c s).buf = s.buf := by cases c <;> rfl
@[simp] theorem raise_flash (c : Cause) (s : State) :
    (raise c s).flash = s.flash := by cases c <;> rfl
@[simp] theorem raise_schedule (c : Cause) (s : State) :
    (raise c s).schedule = s.schedule := by cases c <;> rfl
@[simp] theorem raise_draws (c : Cause) (s : State) :
    (raise c s).draws = s.draws := by cases c <;> rfl
@[simp] theorem raise_flashContract (s : State) :
    raise .flashContract s = { s with fault := some .flashContract, seq := .faulted } := rfl
@[simp] theorem raise_flashRange (s : State) :
    raise .flashRange s = { s with fault := some .flashRange, seq := .faulted } := rfl
@[simp] theorem raise_rxOverflow (s : State) :
    raise .rxOverflow s = { s with fault := some .rxOverflow, seq := .faulted } := rfl
@[simp] theorem raise_transferFault (s : State) :
    raise .transferFault s = { s with halted := true } := rfl
@[simp] theorem raise_imageAbsent (base : Addr) (s : State) :
    raise (.imageAbsent base) s = { s with notFounds := s.notFounds ++ [base] } := rfl

/-! ### `disarm` -/

@[simp] theorem disarm_params (s : State) :
    (disarm s).params = s.params := by unfold disarm; split <;> rfl
@[simp] theorem disarm_seq (s : State) : (disarm s).seq = s.seq := by unfold disarm; split <;> rfl
@[simp] theorem disarm_latch (s : State) :
    (disarm s).latch = s.latch := by unfold disarm; split <;> rfl
@[simp] theorem disarm_mode (s : State) :
    (disarm s).mode = s.mode := by unfold disarm; split <;> rfl
@[simp] theorem disarm_coreSp (s : State) :
    (disarm s).coreSp = s.coreSp := by unfold disarm; split <;> rfl
@[simp] theorem disarm_corePc (s : State) :
    (disarm s).corePc = s.corePc := by unfold disarm; split <;> rfl
@[simp] theorem disarm_handoff (s : State) :
    (disarm s).handoff = s.handoff := by unfold disarm; split <;> rfl
@[simp] theorem disarm_capstat (s : State) :
    (disarm s).capstat = s.capstat := by unfold disarm; split <;> rfl
@[simp] theorem disarm_msgDone (s : State) :
    (disarm s).msgDone = s.msgDone := by unfold disarm; split <;> rfl
@[simp] theorem disarm_idleCnt (s : State) :
    (disarm s).idleCnt = s.idleCnt := by unfold disarm; split <;> rfl
@[simp] theorem disarm_frame (s : State) :
    (disarm s).frame = s.frame := by unfold disarm; split <;> rfl
@[simp] theorem disarm_rxLen (s : State) :
    (disarm s).rxLen = s.rxLen := by unfold disarm; split <;> rfl
@[simp] theorem disarm_curAddr (s : State) :
    (disarm s).curAddr = s.curAddr := by unfold disarm; split <;> rfl
@[simp] theorem disarm_curPages (s : State) :
    (disarm s).curPages = s.curPages := by unfold disarm; split <;> rfl
@[simp] theorem disarm_sup (s : State) :
    (disarm s).sup = if s.sup = .armed then .disarmed else s.sup := by unfold disarm; split <;> rfl
@[simp] theorem disarm_remain (s : State) :
    (disarm s).remain = s.remain := by unfold disarm; split <;> rfl
@[simp] theorem disarm_rxEn (s : State) :
    (disarm s).rxEn = s.rxEn := by unfold disarm; split <;> rfl
@[simp] theorem disarm_rxDma (s : State) :
    (disarm s).rxDma = s.rxDma := by unfold disarm; split <;> rfl
@[simp] theorem disarm_idleIe (s : State) :
    (disarm s).idleIe = s.idleIe := by unfold disarm; split <;> rfl
@[simp] theorem disarm_idleIf (s : State) :
    (disarm s).idleIf = s.idleIf := by unfold disarm; split <;> rfl
@[simp] theorem disarm_dmaEn (s : State) :
    (disarm s).dmaEn = s.dmaEn := by unfold disarm; split <;> rfl
@[simp] theorem disarm_dmaIdx (s : State) :
    (disarm s).dmaIdx = s.dmaIdx := by unfold disarm; split <;> rfl
@[simp] theorem disarm_htif (s : State) :
    (disarm s).htif = s.htif := by unfold disarm; split <;> rfl
@[simp] theorem disarm_tcif (s : State) :
    (disarm s).tcif = s.tcif := by unfold disarm; split <;> rfl
@[simp] theorem disarm_teif (s : State) :
    (disarm s).teif = s.teif := by unfold disarm; split <;> rfl
@[simp] theorem disarm_tif (s : State) :
    (disarm s).tif = if s.sup = .armed then false else s.tif := by unfold disarm; split <;> rfl
@[simp] theorem disarm_halted (s : State) :
    (disarm s).halted = s.halted := by unfold disarm; split <;> rfl
@[simp] theorem disarm_fault (s : State) :
    (disarm s).fault = s.fault := by unfold disarm; split <;> rfl
@[simp] theorem disarm_reports (s : State) :
    (disarm s).reports = s.reports := by unfold disarm; split <;> rfl
@[simp] theorem disarm_notFounds (s : State) :
    (disarm s).notFounds = s.notFounds := by unfold disarm; split <;> rfl
@[simp] theorem disarm_reboots (s : State) :
    (disarm s).reboots = s.reboots := by unfold disarm; split <;> rfl
@[simp] theorem disarm_buf (s : State) : (disarm s).buf = s.buf := by unfold disarm; split <;> rfl
@[simp] theorem disarm_flash (s : State) :
    (disarm s).flash = s.flash := by unfold disarm; split <;> rfl
@[simp] theorem disarm_schedule (s : State) :
    (disarm s).schedule = s.schedule := by unfold disarm; split <;> rfl
@[simp] theorem disarm_draws (s : State) :
    (disarm s).draws = s.draws := by unfold disarm; split <;> rfl

/-! ### `startCapture` -/

@[simp] theorem startCapture_params (d : BufferRef) (s : State) :
    (startCapture d s).params = s.params := rfl
@[simp] theorem startCapture_seq (d : BufferRef) (s : State) : (startCapture d s).seq = s.seq := rfl
@[simp] theorem startCapture_latch (d : BufferRef) (s : State) :
    (startCapture d s).latch = s.latch := rfl
@[simp] theorem startCapture_mode (d : BufferRef) (s : State) :
    (startCapture d s).mode = s.mode := rfl
@[simp] theorem startCapture_coreSp (d : BufferRef) (s : State) :
    (startCapture d s).coreSp = s.coreSp := rfl
@[simp] theorem startCapture_corePc (d : BufferRef) (s : State) :
    (startCapture d s).corePc = s.corePc := rfl
@[simp] theorem startCapture_handoff (d : BufferRef) (s : State) :
    (startCapture d s).handoff = s.handoff := rfl
@[simp] theorem startCapture_capstat (d : BufferRef) (s : State) :
    (startCapture d s).capstat = .none := rfl
@[simp] theorem startCapture_msgDone (d : BufferRef) (s : State) :
    (startCapture d s).msgDone = s.msgDone := rfl
@[simp] theorem startCapture_idleCnt (d : BufferRef) (s : State) :
    (startCapture d s).idleCnt = s.idleCnt := rfl
@[simp] theorem startCapture_frame (d : BufferRef) (s : State) :
    (startCapture d s).frame = s.frame := rfl
@[simp] theorem startCapture_rxLen (d : BufferRef) (s : State) :
    (startCapture d s).rxLen = s.rxLen := rfl
@[simp] theorem startCapture_curAddr (d : BufferRef) (s : State) :
    (startCapture d s).curAddr = s.curAddr := rfl
@[simp] theorem startCapture_curPages (d : BufferRef) (s : State) :
    (startCapture d s).curPages = s.curPages := rfl
@[simp] theorem startCapture_sup (d : BufferRef) (s : State) : (startCapture d s).sup = s.sup := rfl
@[simp] theorem startCapture_remain (d : BufferRef) (s : State) :
    (startCapture d s).remain = s.remain := rfl
@[simp] theorem startCapture_rxEn (d : BufferRef) (s : State) :
    (startCapture d s).rxEn = s.rxEn := rfl
@[simp] theorem startCapture_rxDma (d : BufferRef) (s : State) :
    (startCapture d s).rxDma = true := rfl
@[simp] theorem startCapture_idleIe (d : BufferRef) (s : State) :
    (startCapture d s).idleIe = s.idleIe := rfl
@[simp] theorem startCapture_idleIf (d : BufferRef) (s : State) :
    (startCapture d s).idleIf = s.idleIf := rfl
@[simp] theorem startCapture_dmaEn (d : BufferRef) (s : State) :
    (startCapture d s).dmaEn = true := rfl
@[simp] theorem startCapture_dmaIdx (d : BufferRef) (s : State) :
    (startCapture d s).dmaIdx = 0 := rfl
@[simp] theorem startCapture_htif (d : BufferRef) (s : State) :
    (startCapture d s).htif = false := rfl
@[simp] theorem startCapture_tcif (d : BufferRef) (s : State) :
    (startCapture d s).tcif = false := rfl
@[simp] theorem startCapture_teif (d : BufferRef) (s : State) :
    (startCapture d s).teif = false := rfl
@[simp] theorem startCapture_tif (d : BufferRef) (s : State) : (startCapture d s).tif = s.tif := rfl
@[simp] theorem startCapture_halted (d : BufferRef) (s : State) :
    (startCapture d s).halted = s.halted := rfl
@[simp] theorem startCapture_fault (d : BufferRef) (s : State) :
    (startCapture d s).fault = s.fault := rfl
@[simp] theorem startCapture_reports (d : BufferRef) (s : State) :
    (startCapture d s).reports = s.reports := rfl
@[simp] theorem startCapture_notFounds (d : BufferRef) (s : State) :
    (startCapture d s).notFounds = s.notFounds := rfl
@[simp] theorem startCapture_reboots (d : BufferRef) (s : State) :
    (startCapture d s).reboots = s.reboots := rfl
@[simp] theorem startCapture_buf (d : BufferRef) (s : State) : (startCapture d s).buf = s.buf := rfl
@[simp] theorem startCapture_flash (d : BufferRef) (s : State) :
    (startCapture d s).flash = s.flash := rfl
@[simp] theorem startCapture_schedule (d : BufferRef) (s : State) :
    (startCapture d s).schedule = s.schedule := rfl
@[simp] theorem startCapture_draws (d : BufferRef) (s : State) :
    (startCapture d s).draws = s.draws := rfl

/-! ### `stopCapture` -/

@[simp] theorem stopCapture_params (s : State) : (stopCapture s).params = s.params := rfl
@[simp] theorem stopCapture_seq (s : State) : (stopCapture s).seq = s.seq := rfl
@[simp] theorem stopCapture_latch (s : State) : (stopCapture s).latch = s.latch := rfl
@[simp] theorem stopCapture_mode (s : State) : (stopCapture s).mode = s.mode := rfl
@[simp] theorem stopCapture_coreSp (s : State) : (stopCapture s).coreSp = s.coreSp := rfl
@[simp] theorem stopCapture_corePc (s : State) : (stopCapture s).corePc = s.corePc := rfl
@[simp] theorem stopCapture_handoff (s : State) : (stopCapture s).handoff = s.handoff := rfl
@[simp] theorem stopCapture_capstat (s : State) : (stopCapture s).capstat = s.capstat := rfl
@[simp] theorem stopCapture_msgDone (s : State) : (stopCapture s).msgDone = s.msgDone := rfl
@[simp] theorem stopCapture_idleCnt (s : State) : (stopCapture s).idleCnt = s.idleCnt := rfl
@[simp] theorem stopCapture_frame (s : State) : (stopCapture s).frame = s.frame := rfl
@[simp] theorem stopCapture_rxLen (s : State) : (stopCapture s).rxLen = s.rxLen := rfl
@[simp] theorem stopCapture_curAddr (s : State) : (stopCapture s).curAddr = s.curAddr := rfl
@[simp] theorem stopCapture_curPages (s : State) : (stopCapture s).curPages = s.curPages := rfl
@[simp] theorem stopCapture_sup (s : State) : (stopCapture s).sup = s.sup := rfl
@[simp] theorem stopCapture_remain (s : State) : (stopCapture s).remain = s.remain := rfl
@[simp] theorem stopCapture_rxEn (s : State) : (stopCapture s).rxEn = s.rxEn := rfl
@[simp] theorem stopCapture_rxDma (s : State) : (stopCapture s).rxDma = false := rfl
@[simp] theorem stopCapture_idleIe (s : State) : (stopCapture s).idleIe = s.idleIe := rfl
@[simp] theorem stopCapture_idleIf (s : State) : (stopCapture s).idleIf = s.idleIf := rfl
@[simp] theorem stopCapture_dmaEn (s : State) : (stopCapture s).dmaEn = false := rfl
@[simp] theorem stopCapture_dmaIdx (s : State) : (stopCapture s).dmaIdx = s.dmaIdx := rfl
@[simp] theorem stopCapture_htif (s : State) : (stopCapture s).htif = false := rfl
@[simp] theorem stopCapture_tcif (s : State) : (stopCapture s).tcif = false := rfl
@[simp] theorem stopCapture_teif (s : State) : (stopCapture s).teif = false := rfl
@[simp] theorem stopCapture_tif (s : State) : (stopCapture s).tif = s.tif := rfl
@[simp] theorem stopCapture_halted (s : State) : (stopCapture s).halted = s.halted := rfl
@[simp] theorem stopCapture_fault (s : State) : (stopCapture s).fault = s.fault := rfl
@[simp] theorem stopCapture_reports (s : State) : (stopCapture s).reports = s.reports := rfl
@[simp] theorem stopCapture_notFounds (s : State) : (stopCapture s).notFounds = s.notFounds := rfl
@[simp] theorem stopCapture_reboots (s : State) : (stopCapture s).reboots = s.reboots := rfl
@[simp] theorem stopCapture_buf (s : State) : (stopCapture s).buf = s.buf := rfl
@[simp] theorem stopCapture_flash (s : State) : (stopCapture s).flash = s.flash := rfl
@[simp] theorem stopCapture_schedule (s : State) : (stopCapture s).schedule = s.schedule := rfl
@[simp] theorem stopCapture_draws (s : State) : (stopCapture s).draws = s.draws := rfl

/-! ### `teardownAll` -/

@[simp] theorem teardownAll_params (s : State) :
    (teardownAll s).params = s.params := by unfold teardownAll; simp
@[simp] theorem teardownAll_seq (s : State) :
    (teardownAll s).seq = s.seq := by unfold teardownAll; simp
@[simp] theorem teardownAll_latch (s : State) :
    (teardownAll s).latch = s.latch := by unfold teardownAll; simp
@[simp] theorem teardownAll_mode (s : State) :
    (teardownAll s).mode = s.mode := by unfold teardownAll; simp
@[simp] theorem teardownAll_coreSp (s : State) :
    (teardownAll s).coreSp = s.coreSp := by unfold teardownAll; simp
@[simp] theorem teardownAll_corePc (s : State) :
    (teardownAll s).corePc = s.corePc := by unfold teardownAll; simp
@[simp] theorem teardownAll_handoff (s : State) :
    (teardownAll s).handoff = s.handoff := by unfold teardownAll; simp
@[simp] theorem teardownAll_capstat (s : State) :
    (teardownAll s).capstat = s.capstat := by unfold teardownAll; simp
@[simp] theorem teardownAll_msgDone (s : State) :
    (teardownAll s).msgDone = s.msgDone := by unfold teardownAll; simp
@[simp] theorem teardownAll_idleCnt (s : State) :
    (teardownAll s).idleCnt = s.idleCnt := by unfold teardownAll; simp
@[simp] theorem teardownAll_frame (s : State) :
    (teardownAll s).frame = s.frame := by unfold teardownAll; simp
@[simp] theorem teardownAll_rxLen (s : State) :
    (teardownAll s).rxLen = s.rxLen := by unfold teardownAll; simp
@[simp] theorem teardownAll_curAddr (s : State) :
    (teardownAll s).curAddr = s.curAddr := by unfold teardownAll; simp
@[simp] theorem teardownAll_curPages (s : State) :
    (teardownAll s).curPages = s.curPages := by unfold teardownAll; simp
@[simp] theorem teardownAll_sup (s : State) :
    (teardownAll s).sup = if s.sup = .armed then .disarmed else s.sup := by unfold teardownAll; simp
@[simp] theorem teardownAll_remain (s : State) :
    (teardownAll s).remain = s.remain := by unfold teardownAll; simp
@[simp] theorem teardownAll_rxEn (s : State) :
    (teardownAll s).rxEn = false := by unfold teardownAll; simp
@[simp] theorem teardownAll_rxDma (s : State) :
    (teardownAll s).rxDma = false := by unfold teardownAll; simp
@[simp] theorem teardownAll_idleIe (s : State) :
    (teardownAll s).idleIe = false := by unfold teardownAll; simp
@[simp] theorem teardownAll_idleIf (s : State) :
    (teardownAll s).idleIf = false := by unfold teardownAll; simp
@[simp] theorem teardownAll_dmaEn (s : State) :
    (teardownAll s).dmaEn = false := by unfold teardownAll; simp
@[simp] theorem teardownAll_dmaIdx (s : State) :
    (teardownAll s).dmaIdx = s.dmaIdx := by unfold teardownAll; simp
@[simp] theorem teardownAll_htif (s : State) :
    (teardownAll s).htif = false := by unfold teardownAll; simp
@[simp] theorem teardownAll_tcif (s : State) :
    (teardownAll s).tcif = false := by unfold teardownAll; simp
@[simp] theorem teardownAll_teif (s : State) :
    (teardownAll s).teif = false := by unfold teardownAll; simp
@[simp] theorem teardownAll_tif (s : State) :
    (teardownAll s).tif = if s.sup = .armed then false else s.tif := by unfold teardownAll; simp
@[simp] theorem teardownAll_halted (s : State) :
    (teardownAll s).halted = s.halted := by unfold teardownAll; simp
@[simp] theorem teardownAll_fault (s : State) :
    (teardownAll s).fault = s.fault := by unfold teardownAll; simp
@[simp] theorem teardownAll_reports (s : State) :
    (teardownAll s).reports = s.reports := by unfold teardownAll; simp
@[simp] theorem teardownAll_notFounds (s : State) :
    (teardownAll s).notFounds = s.notFounds := by unfold teardownAll; simp
@[simp] theorem teardownAll_reboots (s : State) :
    (teardownAll s).reboots = s.reboots := by unfold teardownAll; simp
@[simp] theorem teardownAll_buf (s : State) :
    (teardownAll s).buf = s.buf := by unfold teardownAll; simp
@[simp] theorem teardownAll_flash (s : State) :
    (teardownAll s).flash = s.flash := by unfold teardownAll; simp
@[simp] theorem teardownAll_schedule (s : State) :
    (teardownAll s).schedule = s.schedule := by unfold teardownAll; simp
@[simp] theorem teardownAll_draws (s : State) :
    (teardownAll s).draws = s.draws := by unfold teardownAll; simp

/-! ### `enterReceive` -/

@[simp] theorem enterReceive_params (s : State) : (enterReceive s).params = s.params := rfl
@[simp] theorem enterReceive_seq (s : State) : (enterReceive s).seq = .cRecv := rfl
@[simp] theorem enterReceive_latch (s : State) : (enterReceive s).latch = s.latch := rfl
@[simp] theorem enterReceive_mode (s : State) : (enterReceive s).mode = s.mode := rfl
@[simp] theorem enterReceive_coreSp (s : State) : (enterReceive s).coreSp = s.coreSp := rfl
@[simp] theorem enterReceive_corePc (s : State) : (enterReceive s).corePc = s.corePc := rfl
@[simp] theorem enterReceive_handoff (s : State) : (enterReceive s).handoff = s.handoff := rfl
@[simp] theorem enterReceive_capstat (s : State) : (enterReceive s).capstat = s.capstat := rfl
@[simp] theorem enterReceive_msgDone (s : State) : (enterReceive s).msgDone = false := rfl
@[simp] theorem enterReceive_idleCnt (s : State) : (enterReceive s).idleCnt = 0 := rfl
@[simp] theorem enterReceive_frame (s : State) : (enterReceive s).frame = .idle := rfl
@[simp] theorem enterReceive_rxLen (s : State) : (enterReceive s).rxLen = 0 := rfl
@[simp] theorem enterReceive_curAddr (s : State) : (enterReceive s).curAddr = s.curAddr := rfl
@[simp] theorem enterReceive_curPages (s : State) : (enterReceive s).curPages = s.curPages := rfl
@[simp] theorem enterReceive_sup (s : State) : (enterReceive s).sup = s.sup := rfl
@[simp] theorem enterReceive_remain (s : State) : (enterReceive s).remain = s.remain := rfl
@[simp] theorem enterReceive_rxEn (s : State) : (enterReceive s).rxEn = s.rxEn := rfl
@[simp] theorem enterReceive_rxDma (s : State) : (enterReceive s).rxDma = s.rxDma := rfl
@[simp] theorem enterReceive_idleIe (s : State) : (enterReceive s).idleIe = true := rfl
@[simp] theorem enterReceive_idleIf (s : State) : (enterReceive s).idleIf = false := rfl
@[simp] theorem enterReceive_dmaEn (s : State) : (enterReceive s).dmaEn = s.dmaEn := rfl
@[simp] theorem enterReceive_dmaIdx (s : State) : (enterReceive s).dmaIdx = s.dmaIdx := rfl
@[simp] theorem enterReceive_htif (s : State) : (enterReceive s).htif = s.htif := rfl
@[simp] theorem enterReceive_tcif (s : State) : (enterReceive s).tcif = s.tcif := rfl
@[simp] theorem enterReceive_teif (s : State) : (enterReceive s).teif = s.teif := rfl
@[simp] theorem enterReceive_tif (s : State) : (enterReceive s).tif = s.tif := rfl
@[simp] theorem enterReceive_halted (s : State) : (enterReceive s).halted = s.halted := rfl
@[simp] theorem enterReceive_fault (s : State) : (enterReceive s).fault = s.fault := rfl
@[simp] theorem enterReceive_reports (s : State) : (enterReceive s).reports = s.reports := rfl
@[simp] theorem enterReceive_notFounds (s : State) : (enterReceive s).notFounds = s.notFounds := rfl
@[simp] theorem enterReceive_reboots (s : State) : (enterReceive s).reboots = s.reboots := rfl
@[simp] theorem enterReceive_buf (s : State) : (enterReceive s).buf = s.buf := rfl
@[simp] theorem enterReceive_flash (s : State) : (enterReceive s).flash = s.flash := rfl
@[simp] theorem enterReceive_schedule (s : State) : (enterReceive s).schedule = s.schedule := rfl
@[simp] theorem enterReceive_draws (s : State) : (enterReceive s).draws = s.draws := rfl

/-! ### `armSession` -/

@[simp] theorem armSession_params (s : State) :
    (armSession s).params = s.params := by simp [armSession]
@[simp] theorem armSession_seq (s : State) : (armSession s).seq = .pCheck := by simp [armSession]
@[simp] theorem armSession_latch (s : State) :
    (armSession s).latch = s.latch := by simp [armSession]
@[simp] theorem armSession_mode (s : State) :
    (armSession s).mode = .programmerMode := by simp [armSession]
@[simp] theorem armSession_coreSp (s : State) :
    (armSession s).coreSp = s.coreSp := by simp [armSession]
@[simp] theorem armSession_corePc (s : State) :
    (armSession s).corePc = s.corePc := by simp [armSession]
@[simp] theorem armSession_handoff (s : State) :
    (armSession s).handoff = s.handoff := by simp [armSession]
@[simp] theorem armSession_capstat (s : State) :
    (armSession s).capstat = .none := by simp [armSession]
@[simp] theorem armSession_msgDone (s : State) :
    (armSession s).msgDone = false := by simp [armSession]
@[simp] theorem armSession_idleCnt (s : State) : (armSession s).idleCnt = 0 := by simp [armSession]
@[simp] theorem armSession_frame (s : State) :
    (armSession s).frame = s.frame := by simp [armSession]
@[simp] theorem armSession_rxLen (s : State) :
    (armSession s).rxLen = s.rxLen := by simp [armSession]
@[simp] theorem armSession_curAddr (s : State) :
    (armSession s).curAddr = s.params.appBase := by simp [armSession]
@[simp] theorem armSession_curPages (s : State) :
    (armSession s).curPages = 0 := by simp [armSession]
@[simp] theorem armSession_sup (s : State) :
    (armSession s).sup = if s.sup = .armed then .disarmed else s.sup := by simp [armSession]
@[simp] theorem armSession_remain (s : State) :
    (armSession s).remain = s.remain := by simp [armSession]
@[simp] theorem armSession_rxEn (s : State) : (armSession s).rxEn = s.rxEn := by simp [armSession]
@[simp] theorem armSession_rxDma (s : State) : (armSession s).rxDma = true := by simp [armSession]
@[simp] theorem armSession_idleIe (s : State) : (armSession s).idleIe = true := by simp [armSession]
@[simp] theorem armSession_idleIf (s : State) :
    (armSession s).idleIf = false := by simp [armSession]
@[simp] theorem armSession_dmaEn (s : State) : (armSession s).dmaEn = true := by simp [armSession]
@[simp] theorem armSession_dmaIdx (s : State) : (armSession s).dmaIdx = 0 := by simp [armSession]
@[simp] theorem armSession_htif (s : State) : (armSession s).htif = false := by simp [armSession]
@[simp] theorem armSession_tcif (s : State) : (armSession s).tcif = false := by simp [armSession]
@[simp] theorem armSession_teif (s : State) : (armSession s).teif = false := by simp [armSession]
@[simp] theorem armSession_tif (s : State) :
    (armSession s).tif = if s.sup = .armed then false else s.tif := by simp [armSession]
@[simp] theorem armSession_halted (s : State) :
    (armSession s).halted = s.halted := by simp [armSession]
@[simp] theorem armSession_fault (s : State) :
    (armSession s).fault = s.fault := by simp [armSession]
@[simp] theorem armSession_reports (s : State) :
    (armSession s).reports = s.reports := by simp [armSession]
@[simp] theorem armSession_notFounds (s : State) :
    (armSession s).notFounds = s.notFounds := by simp [armSession]
@[simp] theorem armSession_reboots (s : State) :
    (armSession s).reboots = s.reboots := by simp [armSession]
@[simp] theorem armSession_buf (s : State) : (armSession s).buf = s.buf := by simp [armSession]
@[simp] theorem armSession_flash (s : State) :
    (armSession s).flash = s.flash := by simp [armSession]
@[simp] theorem armSession_schedule (s : State) :
    (armSession s).schedule = s.schedule := by simp [armSession]
@[simp] theorem armSession_draws (s : State) :
    (armSession s).draws = s.draws := by simp [armSession]

/-! ### `resetBlock` -/

@[simp] theorem resetBlock_params (s : State) : (resetBlock s).params = s.params := rfl
@[simp] theorem resetBlock_seq (s : State) : (resetBlock s).seq = .aPoll := rfl
@[simp] theorem resetBlock_latch (s : State) :
    (resetBlock s).latch = if Config.freeBit s.draws then .second else .first := rfl
@[simp] theorem resetBlock_mode (s : State) : (resetBlock s).mode = .awaitingActivation := rfl
@[simp] theorem resetBlock_coreSp (s : State) : (resetBlock s).coreSp = s.coreSp := rfl
@[simp] theorem resetBlock_corePc (s : State) : (resetBlock s).corePc = s.corePc := rfl
@[simp] theorem resetBlock_handoff (s : State) : (resetBlock s).handoff = none := rfl
@[simp] theorem resetBlock_capstat (s : State) : (resetBlock s).capstat = .none := rfl
@[simp] theorem resetBlock_msgDone (s : State) : (resetBlock s).msgDone = false := rfl
@[simp] theorem resetBlock_idleCnt (s : State) : (resetBlock s).idleCnt = 0 := rfl
@[simp] theorem resetBlock_frame (s : State) : (resetBlock s).frame = .idle := rfl
@[simp] theorem resetBlock_rxLen (s : State) : (resetBlock s).rxLen = 0 := rfl
@[simp] theorem resetBlock_curAddr (s : State) : (resetBlock s).curAddr = s.params.appBase := rfl
@[simp] theorem resetBlock_curPages (s : State) : (resetBlock s).curPages = 0 := rfl
@[simp] theorem resetBlock_sup (s : State) : (resetBlock s).sup = .armed := rfl
@[simp] theorem resetBlock_remain (s : State) : (resetBlock s).remain = s.params.timeoutTicks := rfl
@[simp] theorem resetBlock_rxEn (s : State) : (resetBlock s).rxEn = true := rfl
@[simp] theorem resetBlock_rxDma (s : State) : (resetBlock s).rxDma = false := rfl
@[simp] theorem resetBlock_idleIe (s : State) : (resetBlock s).idleIe = false := rfl
@[simp] theorem resetBlock_idleIf (s : State) : (resetBlock s).idleIf = false := rfl
@[simp] theorem resetBlock_dmaEn (s : State) : (resetBlock s).dmaEn = false := rfl
@[simp] theorem resetBlock_dmaIdx (s : State) : (resetBlock s).dmaIdx = 0 := rfl
@[simp] theorem resetBlock_htif (s : State) : (resetBlock s).htif = false := rfl
@[simp] theorem resetBlock_tcif (s : State) : (resetBlock s).tcif = false := rfl
@[simp] theorem resetBlock_teif (s : State) : (resetBlock s).teif = false := rfl
@[simp] theorem resetBlock_tif (s : State) : (resetBlock s).tif = false := rfl
@[simp] theorem resetBlock_halted (s : State) : (resetBlock s).halted = false := rfl
@[simp] theorem resetBlock_fault (s : State) : (resetBlock s).fault = none := rfl
@[simp] theorem resetBlock_reports (s : State) : (resetBlock s).reports = s.reports := rfl
@[simp] theorem resetBlock_notFounds (s : State) : (resetBlock s).notFounds = s.notFounds := rfl
@[simp] theorem resetBlock_reboots (s : State) : (resetBlock s).reboots = s.reboots := rfl
@[simp] theorem resetBlock_buf (s : State) : (resetBlock s).buf = freeBytes s.draws := rfl
@[simp] theorem resetBlock_flash (s : State) : (resetBlock s).flash = s.flash := rfl
@[simp] theorem resetBlock_schedule (s : State) : (resetBlock s).schedule = s.schedule := rfl
@[simp] theorem resetBlock_draws (s : State) : (resetBlock s).draws = s.draws + 1 := rfl

end Sys2Proof.Machine
end

