-- ==== Sys2Proof/Laws/Ops.lean ====
section
/-! SUPPORT. One lemma for each shared operation that says once everything it can do. -/

namespace Sys2Proof.Machine

/-! ### Outcomes -/

theorem guarded_eq_next {mn : String} {en : Bool} {t u : State} :
    guarded mn en t = .next u ↔ en = true ∧ t = u := by
  cases en <;> simp [guarded]

@[simp] theorem guarded_true (mn : String) (t : State) : guarded mn true t = .next t := rfl

@[simp] theorem guarded_false (mn : String) (t : State) :
    guarded mn false t = .refused (.notEnabled mn) := rfl

/-! ### The buffer -/

theorem bufByte_setBufByte (s : State) (k j : Nat) (b : Byte) (hk : k < Config.bufBytes) :
    (s.setBufByte k b).bufByte j = if j = k then b else s.bufByte j := by
  unfold State.bufByte State.setBufByte
  by_cases h : j = k
  · subst h
    simp [hk]
  · simp [h, Vector.getElem?_setIfInBounds_ne (Ne.symm h)]

theorem bufByte_clearBuffer (s : State) (j : Nat) : (clearBuffer s).bufByte j = 0#8 := by
  unfold State.bufByte clearBuffer
  by_cases h : j < Config.bufBytes
  · rw [Vector.getElem?_eq_getElem h]; simp
  · rw [Vector.getElem?_eq_none (by omega)]; rfl

@[simp] theorem halfBytesOf_length (s : State) (h : Half) :
    (halfBytesOf s h).length = Config.halfBytes := by
  cases h <;> simp [halfBytesOf, halfOffset, Config.halfBytes, Config.bufBytes]

theorem halfBytesOf_getElem? (s : State) (h : Half) (k : Nat) (hk : k < Config.halfBytes) :
    ((halfBytesOf s h)[k]?).getD 0#8 = s.bufByte (halfOffset h + k) := by
  simp [halfBytesOf, State.bufByte, hk]

/-! ### Flash -/

/-- A byte inside the address space reads as flash holds it. -/
theorem memRead1_inside {s : State} {a : Nat} (h : a < Config.flashSpace) :
    memRead1 s a = s.flash.read a := if_pos h

/-- A word inside the address space reads as flash holds it. -/
theorem memRead4_inside {s : State} {a : Nat} (h : a + 4 ≤ Config.flashSpace) :
    memRead4 s a = s.flash.word a := by
  simp only [memRead4, Memory.word, memRead1_inside (show a < Config.flashSpace by omega),
    memRead1_inside (show a + 1 < Config.flashSpace by omega),
    memRead1_inside (show a + 2 < Config.flashSpace by omega),
    memRead1_inside (show a + 3 < Config.flashSpace by omega)]

/-- A read inside the address space leaves the state. -/
theorem afterRead_inside {s : State} {a : Nat} (h : a + 4 ≤ Config.flashSpace) :
    afterRead a s = s := if_pos h

/-- All a read may change is the count of draws. -/
theorem afterRead_eq (a : Nat) (s : State) :
    afterRead a s = { s with draws := (afterRead a s).draws } := by
  unfold afterRead
  split <;> rfl

/-- The bytes of a little-endian word (R60, R61). -/
theorem extract_littleEndian (b0 b1 b2 b3 : Byte) :
    BitVec.extractLsb' 0 8 (littleEndian b0 b1 b2 b3) = b0 ∧
    BitVec.extractLsb' 8 8 (littleEndian b0 b1 b2 b3) = b1 ∧
    BitVec.extractLsb' 16 8 (littleEndian b0 b1 b2 b3) = b2 ∧
    BitVec.extractLsb' 24 8 (littleEndian b0 b1 b2 b3) = b3 := by
  have h : ∀ i, (littleEndian b0 b1 b2 b3).getLsbD i =
      if i < 8 then b0.getLsbD i
      else if i - 8 < 8 then b1.getLsbD (i - 8)
      else if i - 8 - 8 < 8 then b2.getLsbD (i - 8 - 8) else b3.getLsbD (i - 8 - 8 - 8) := by
    intro i
    change (((b3 ++ b2) ++ b1) ++ b0 : BitVec (8 + 8 + 8 + 8)).getLsbD i = _
    simp only [BitVec.getLsbD_append]
  refine ⟨?_, ?_, ?_, ?_⟩ <;>
  · apply BitVec.eq_of_getLsbD_eq
    intro i hi
    rw [BitVec.getLsbD_extractLsb', h]
    simp only [hi, decide_true, Bool.true_and]
    split_ifs <;> first | omega | (congr 1; omega)

theorem inAppRegion_iff (p : Params) (a n : Nat) :
    inAppRegion p a n = true ↔ p.appBase.toNat ≤ a ∧ a + n ≤ p.appLimit.toNat := by
  simp [inAppRegion]

/-- A range inside the region lies inside the address space. -/
theorem inAppRegion_space {p : Params} {a n : Nat} (h : inAppRegion p a n = true) :
    a + n ≤ Config.flashSpace := by
  have h1 := ((inAppRegion_iff p a n).1 h).2
  have h2 := p.appLimit.isLt
  simp only [Config.flashSpace]
  omega

/-- Everything `FlashErasePage` can do (R151). -/
theorem flashErasePage_cases (a : Addr) (s : State) :
    (a.toNat % Config.pageBytes ≠ 0 ∧ flashErasePage a s = .error .flashContract) ∨
    (a.toNat % Config.pageBytes = 0 ∧ inAppRegion s.params a.toNat Config.pageBytes = false ∧
      flashErasePage a s = .error .flashRange) ∨
    (a.toNat % Config.pageBytes = 0 ∧ inAppRegion s.params a.toNat Config.pageBytes = true ∧
      flashErasePage a s = .ok { s with
        flash := s.flash.writeBytes a.toNat
          (List.replicate Config.pageBytes s.params.erasedByte) }) := by
  unfold flashErasePage
  by_cases h : a.toNat % Config.pageBytes = 0
  · cases hr : inAppRegion s.params a.toNat Config.pageBytes <;> simp [h]
  · simp [h]

/-- Everything `FlashWriteHalf` can do (R152). -/
theorem flashWriteHalf_cases (a : Addr) (h : Half) (s : State) :
    (a.toNat % Config.halfBytes ≠ 0 ∧ flashWriteHalf a h s = .error .flashContract) ∨
    (a.toNat % Config.halfBytes = 0 ∧ inAppRegion s.params a.toNat Config.halfBytes = false ∧
      flashWriteHalf a h s = .error .flashRange) ∨
    (a.toNat % Config.halfBytes = 0 ∧ inAppRegion s.params a.toNat Config.halfBytes = true ∧
      flashWriteHalf a h s = .ok { s with
        flash := s.flash.writeBytes a.toNat (halfBytesOf s h) }) := by
  unfold flashWriteHalf
  by_cases ha : a.toNat % Config.halfBytes = 0
  · cases hr : inAppRegion s.params a.toNat Config.halfBytes <;> simp [ha]
  · simp [ha]

/-- What an address reads as after a page inside the region is erased (R151). -/
theorem read_erased {s : State} (hwf : s.flash.wf = true) {a : Addr}
    (hr : inAppRegion s.params a.toNat Config.pageBytes = true) (x : Nat) :
    (s.flash.writeBytes a.toNat (List.replicate Config.pageBytes s.params.erasedByte)).read x =
      if a.toNat ≤ x ∧ x < a.toNat + Config.pageBytes then s.params.erasedByte
      else s.flash.read x := by
  have hs := inAppRegion_space hr
  rw [Memory.read_writeBytes hwf _ _ (by simpa using hs)]
  simp only [List.length_replicate]
  split
  · rw [List.getElem?_replicate_of_lt (by omega)]; rfl
  · rfl

/-- What an address reads as after a half is written inside the region (R152). -/
theorem read_written {s : State} (hwf : s.flash.wf = true) {a : Addr} (h : Half)
    (hr : inAppRegion s.params a.toNat Config.halfBytes = true) (x : Nat) :
    (s.flash.writeBytes a.toNat (halfBytesOf s h)).read x =
      if a.toNat ≤ x ∧ x < a.toNat + Config.halfBytes then s.bufByte (halfOffset h + (x - a.toNat))
      else s.flash.read x := by
  have hs := inAppRegion_space hr
  rw [Memory.read_writeBytes hwf _ _ (by simpa using hs)]
  simp only [halfBytesOf_length]
  split
  · exact halfBytesOf_getElem? s h _ (by omega)
  · rfl

theorem orRaise_ok (s t : State) : orRaise s (.ok t) = t := rfl

theorem orRaise_error (s : State) (c : Cause) : orRaise s (.error c) = raise c s := rfl

/-! ### Hand-off -/

/-- Everything `try_jump` can do, at any base (R185 to R188; log entry 10). -/
theorem tryJump_cases (base : Addr) (s : State) :
    (memRead4 s base.toNat ≠ s.params.spSentinel ∧
      tryJump base s = (.notPresent,
        { afterRead base.toNat s with notFounds := s.notFounds ++ [base] })) ∨
    (memRead4 s base.toNat = s.params.spSentinel ∧
      tryJump base s = (.jumped,
        { afterRead (base.toNat + 4) (afterRead base.toNat s) with
          coreSp := s.params.spSentinel
          corePc := memRead4 (afterRead base.toNat s) (base.toNat + 4)
          handoff := some
            { base := base, sp := s.params.spSentinel,
              entry := memRead4 (afterRead base.toNat s) (base.toNat + 4) } })) := by
  by_cases h : memRead4 s base.toNat = s.params.spSentinel
  · exact .inr ⟨h, by simp [tryJump, h]⟩
  · exact .inl ⟨h, by simp [tryJump, h]⟩

/-- A word at the base other than the sentinel, inside the address space (R188). -/
theorem tryJump_absent {base : Addr} {s : State} (h : base.toNat + 4 ≤ Config.flashSpace)
    (hw : s.flash.word base.toNat ≠ s.params.spSentinel) :
    tryJump base s = (.notPresent, { s with notFounds := s.notFounds ++ [base] }) := by
  simp [tryJump, memRead4_inside h, afterRead_inside h, hw]

/-- The sentinel at the base, both words inside the address space (R187). -/
theorem tryJump_present {base : Addr} {s : State} (h : base.toNat + 8 ≤ Config.flashSpace)
    (hw : s.flash.word base.toNat = s.params.spSentinel) :
    tryJump base s = (.jumped, { s with
      coreSp := s.params.spSentinel
      corePc := s.flash.word (base.toNat + 4)
      handoff := some
        { base := base, sp := s.params.spSentinel, entry := s.flash.word (base.toNat + 4) } }) := by
  simp [tryJump, memRead4_inside (s := s) (show base.toNat + 4 ≤ Config.flashSpace by omega),
    memRead4_inside (s := s) (show base.toNat + 4 + 4 ≤ Config.flashSpace by omega),
    afterRead_inside (s := s) (show base.toNat + 4 ≤ Config.flashSpace by omega),
    afterRead_inside (s := s) (show base.toNat + 4 + 4 ≤ Config.flashSpace by omega), hw]

/-- What `reboot()` does, both words inside the address space (R191). -/
theorem reboot_inside {s : State} (h : s.params.bootBase.toNat + 8 ≤ Config.flashSpace) :
    reboot s = resetBlock { s with
      coreSp := s.flash.word s.params.bootBase.toNat
      corePc := s.flash.word (s.params.bootBase.toNat + 4)
      reboots := s.reboots ++
        [{ base := s.params.bootBase, sp := s.flash.word s.params.bootBase.toNat,
           entry := s.flash.word (s.params.bootBase.toNat + 4) }] } := by
  simp [reboot,
    memRead4_inside (s := s) (show s.params.bootBase.toNat + 4 ≤ Config.flashSpace by omega),
    memRead4_inside (s := s) (show s.params.bootBase.toNat + 4 + 4 ≤ Config.flashSpace by omega),
    afterRead_inside (s := s) (show s.params.bootBase.toNat + 4 ≤ Config.flashSpace by omega),
    afterRead_inside (s := s) (show s.params.bootBase.toNat + 4 + 4 ≤ Config.flashSpace by omega)]

/-! ### Parameters -/

/-- What valid parameters say (R7), as arithmetic. -/
theorem Params.valid_iff (p : Params) : p.valid = true ↔
    p.cmdRunApp ≠ p.cmdEnterProg ∧ p.cmdRunApp ≠ p.cmdReboot ∧ p.cmdEnterProg ≠ p.cmdReboot ∧
    p.appBase.toNat % Config.pageBytes = 0 ∧ p.appLimit.toNat % Config.pageBytes = 0 ∧
    p.appBase.toNat < p.appLimit.toNat ∧
    p.bootBase.toNat % 4 = 0 ∧ p.bootBase.toNat + 8 ≤ Config.flashSpace ∧
    ¬(p.appBase.toNat ≤ p.bootBase.toNat ∧ p.bootBase.toNat < p.appLimit.toNat) ∧
    ¬(p.appBase.toNat ≤ p.bootBase.toNat + 4 ∧ p.bootBase.toNat + 4 < p.appLimit.toNat) ∧
    (∀ r ∈ p.bootCode, r.clearOf p.appBase.toNat p.appLimit.toNat = true) ∧
    1 ≤ p.timeoutTicks ∧ p.timeoutTicks < 256 := by
  simp only [Params.valid, Bool.and_eq_true, bne_iff_ne, beq_iff_eq, decide_eq_true_eq,
    Bool.not_eq_true', Bool.and_eq_false_iff, decide_eq_false_iff_not, ne_eq, not_and, List.all_eq_true]
  constructor
  · rintro ⟨⟨⟨⟨⟨⟨⟨⟨⟨⟨⟨⟨a, b⟩, c⟩, d⟩, e⟩, f⟩, g⟩, h⟩, i⟩, j⟩, m⟩, k⟩, l⟩
    exact ⟨a, b, c, d, e, f, g, h, by tauto, by tauto, m, k, l⟩
  · rintro ⟨a, b, c, d, e, f, g, h, i, j, m, k, l⟩
    exact ⟨⟨⟨⟨⟨⟨⟨⟨⟨⟨⟨⟨a, b⟩, c⟩, d⟩, e⟩, f⟩, g⟩, h⟩, by tauto⟩, by tauto⟩, m⟩, k⟩, l⟩

/-- Under valid parameters no byte of the region holds the bootloader's code (R7, R79, R157). -/
theorem Params.bootCode_outside {p : Params} (h : p.valid = true) {r : CodeRange}
    (hr : r ∈ p.bootCode) {a : Nat} (h1 : p.appBase.toNat ≤ a) (h2 : a < p.appLimit.toNat) :
    r.holds a = false := by
  have hc := ((Params.valid_iff p).1 h).2.2.2.2.2.2.2.2.2.2.1 r hr
  simp only [CodeRange.clearOf, Bool.or_eq_true, beq_iff_eq, decide_eq_true_eq] at hc
  simp only [CodeRange.holds, Bool.and_eq_false_iff, decide_eq_false_iff_not]
  omega

/-- The parameters of the machine after reset meet R7's constraints, whatever they are. -/
theorem Config.params_valid : Config.params.valid = true := by
  unfold Sys2Proof.Config.params
  split
  · assumption
  · decide

/-! ### Received bytes -/

/-- The parts of a state that is not frozen. -/
theorem frozen_eq_false (s : State) :
    s.frozen = false ↔ s.halted = false ∧ s.seq ≠ .gone ∧ s.seq ≠ .faulted := by
  simp [State.frozen, seqTerminal]

theorem frozen_eq_true (s : State) :
    s.frozen = true ↔ s.halted = true ∨ s.seq = .gone ∨ s.seq = .faulted := by
  simp [State.frozen, seqTerminal]

theorem stepEnabled_iff (q : Seq) (s : State) :
    stepEnabled q s = true ↔ s.seq = q ∧ s.halted = false := by
  simp [stepEnabled]

/-- What each route says of the state (R112). -/
theorem rxRoute_cases (s : State) :
    (s.frozen = true ∧ rxRoute s = .noEffect) ∨
    (s.frozen = false ∧ s.rxEn = false ∧ rxRoute s = .off) ∨
    (s.frozen = false ∧ s.rxEn = true ∧ s.rxDma = true ∧ s.dmaEn = true ∧
      s.dmaIdx < Config.bufBytes ∧ rxRoute s = .dmaStore) ∨
    (s.frozen = false ∧ s.rxEn = true ∧ s.rxDma = true ∧
      (s.dmaEn = false ∨ Config.bufBytes ≤ s.dmaIdx) ∧ rxRoute s = .dmaDrop) ∨
    (s.frozen = false ∧ s.rxEn = true ∧ s.rxDma = false ∧ s.seq = .aPoll ∧
      rxRoute s = .activation) ∨
    (s.frozen = false ∧ s.rxEn = true ∧ s.rxDma = false ∧ s.seq = .cRecv ∧ s.msgDone = false ∧
      s.frame = .idle ∧ rxRoute s = .frameIdle) ∨
    (s.frozen = false ∧ s.rxEn = true ∧ s.rxDma = false ∧ s.seq = .cRecv ∧ s.msgDone = false ∧
      s.frame = .startDetectedOnce ∧ rxRoute s = .frameStart1) ∨
    (s.frozen = false ∧ s.rxEn = true ∧ s.rxDma = false ∧ s.seq = .cRecv ∧ s.msgDone = false ∧
      s.frame = .messageActive ∧ rxRoute s = .frameActive) ∨
    (s.frozen = false ∧ s.rxEn = true ∧ s.rxDma = false ∧ s.seq ≠ .aPoll ∧
      (s.seq ≠ .cRecv ∨ s.msgDone = true) ∧ rxRoute s = .unheard) := by
  cases hf : s.frozen
  · cases he : s.rxEn
    · simp [rxRoute, hf, he]
    · cases hd : s.rxDma
      · by_cases ha : s.seq = .aPoll
        · simp [rxRoute, hf, he, hd, ha]
        · by_cases hc : s.seq = .cRecv
          · cases hm : s.msgDone
            · cases hfr : s.frame <;> simp [rxRoute, hf, he, hd, hc, hm, hfr]
            · simp [rxRoute, hf, he, hd, hc, hm]
          · simp [rxRoute, hf, he, hd, ha, hc]
      · cases hde : s.dmaEn
        · simp [rxRoute, hf, he, hd, hde]
        · by_cases hi : s.dmaIdx < Config.bufBytes
          · simp [rxRoute, hf, he, hd, hde, hi]
          · simp [rxRoute, hf, he, hd, hde, hi, Nat.le_of_not_lt hi]
  · simp [rxRoute, hf]

end Sys2Proof.Machine
end

