-- ==== Sys2Proof/Laws/PerInstr.lean ====
section
/-! SUPPORT. Statements made for every instruction, one lemma per constructor. -/

namespace Sys2Proof.Laws

/-- A row has an encoding exactly when its format is A, C or P, and then in that format; "rows of the
other formats have no bit pattern to match" (30_encoding.md R104). -/
def Patterns.Statement (i : Instr) : Prop :=
  ∀ p : Params, match encode p i with
    | some (f, _) => i.rowFormat = .wire f
    | none => i.rowFormat = .event ∨ i.rowFormat = .step ∨ i.rowFormat = .op

theorem Patterns.activate : Patterns.Statement .activate := fun _ => rfl
theorem Patterns.actIgnored (b : Byte) : Patterns.Statement (.actIgnored b) := fun _ => rfl
theorem Patterns.runApp : Patterns.Statement .runApp := fun _ => rfl
theorem Patterns.enterProg : Patterns.Statement .enterProg := fun _ => rfl
theorem Patterns.reboot : Patterns.Statement .reboot := fun _ => rfl
theorem Patterns.cmdIgnored (c : Byte) : Patterns.Statement (.cmdIgnored c) := fun _ => rfl
theorem Patterns.emptyFrame : Patterns.Statement .emptyFrame := fun _ => rfl
theorem Patterns.imageByte (d : Byte) : Patterns.Statement (.imageByte d) := fun _ => rfl
theorem Patterns.reset : Patterns.Statement .reset := fun _ => .inl rfl
theorem Patterns.rx (b : Byte) : Patterns.Statement (.rx b) := fun _ => .inl rfl
theorem Patterns.idle : Patterns.Statement .idle := fun _ => .inl rfl
theorem Patterns.tick : Patterns.Statement .tick := fun _ => .inl rfl
theorem Patterns.te : Patterns.Statement .te := fun _ => .inl rfl
theorem Patterns.irqHt : Patterns.Statement .irqHt := fun _ => .inl rfl
theorem Patterns.irqTc : Patterns.Statement .irqTc := fun _ => .inl rfl
theorem Patterns.irqTe : Patterns.Statement .irqTe := fun _ => .inl rfl
theorem Patterns.irqIdle : Patterns.Statement .irqIdle := fun _ => .inl rfl
theorem Patterns.irqTim : Patterns.Statement .irqTim := fun _ => .inl rfl
theorem Patterns.rxOff (b : Byte) : Patterns.Statement (.rxOff b) := fun _ => .inl rfl
theorem Patterns.rxUnheard (b : Byte) : Patterns.Statement (.rxUnheard b) := fun _ => .inl rfl
theorem Patterns.rxActivation (b : Byte) : Patterns.Statement (.rxActivation b) := fun _ => .inl rfl
theorem Patterns.rxFrameIdle (b : Byte) : Patterns.Statement (.rxFrameIdle b) := fun _ => .inl rfl
theorem Patterns.rxFrameStart1 (b : Byte) : Patterns.Statement (.rxFrameStart1 b) :=
  fun _ => .inl rfl
theorem Patterns.rxFrameActive (b : Byte) : Patterns.Statement (.rxFrameActive b) :=
  fun _ => .inl rfl
theorem Patterns.rxDmaStore (b : Byte) : Patterns.Statement (.rxDmaStore b) := fun _ => .inl rfl
theorem Patterns.rxDmaDrop (b : Byte) : Patterns.Statement (.rxDmaDrop b) := fun _ => .inl rfl
theorem Patterns.stepAPoll : Patterns.Statement .stepAPoll := fun _ => .inr (.inl rfl)
theorem Patterns.stepCEnter : Patterns.Statement .stepCEnter := fun _ => .inr (.inl rfl)
theorem Patterns.stepCRecv : Patterns.Statement .stepCRecv := fun _ => .inr (.inl rfl)
theorem Patterns.stepCDispatch : Patterns.Statement .stepCDispatch := fun _ => .inr (.inl rfl)
theorem Patterns.stepRTeardown : Patterns.Statement .stepRTeardown := fun _ => .inr (.inl rfl)
theorem Patterns.stepRJump : Patterns.Statement .stepRJump := fun _ => .inr (.inl rfl)
theorem Patterns.stepGClear : Patterns.Statement .stepGClear := fun _ => .inr (.inl rfl)
theorem Patterns.stepGArm : Patterns.Statement .stepGArm := fun _ => .inr (.inl rfl)
theorem Patterns.stepBTeardown : Patterns.Statement .stepBTeardown := fun _ => .inr (.inl rfl)
theorem Patterns.stepBJump : Patterns.Statement .stepBJump := fun _ => .inr (.inl rfl)
theorem Patterns.stepPCheck : Patterns.Statement .stepPCheck := fun _ => .inr (.inl rfl)
theorem Patterns.stepPErase : Patterns.Statement .stepPErase := fun _ => .inr (.inl rfl)
theorem Patterns.stepPWrite : Patterns.Statement .stepPWrite := fun _ => .inr (.inl rfl)
theorem Patterns.stepPAdvance : Patterns.Statement .stepPAdvance := fun _ => .inr (.inl rfl)
theorem Patterns.stepPClear : Patterns.Statement .stepPClear := fun _ => .inr (.inl rfl)
theorem Patterns.stepEStop : Patterns.Statement .stepEStop := fun _ => .inr (.inl rfl)
theorem Patterns.stepEReport : Patterns.Statement .stepEReport := fun _ => .inr (.inl rfl)
theorem Patterns.stepERewind : Patterns.Statement .stepERewind := fun _ => .inr (.inl rfl)
theorem Patterns.stepEClear : Patterns.Statement .stepEClear := fun _ => .inr (.inl rfl)
theorem Patterns.stepEFallback : Patterns.Statement .stepEFallback := fun _ => .inr (.inl rfl)
theorem Patterns.receiveCommand : Patterns.Statement .receiveCommand := fun _ => .inr (.inr rfl)
theorem Patterns.startCapture (dest : BufferRef) : Patterns.Statement (.startCapture dest) :=
  fun _ => .inr (.inr rfl)
theorem Patterns.stopCapture : Patterns.Statement .stopCapture := fun _ => .inr (.inr rfl)
theorem Patterns.flashErasePage (a : Addr) : Patterns.Statement (.flashErasePage a) :=
  fun _ => .inr (.inr rfl)
theorem Patterns.flashWriteHalf (a : Addr) (h : Half) : Patterns.Statement (.flashWriteHalf a h) :=
  fun _ => .inr (.inr rfl)
theorem Patterns.commitHalfPage (dest : Addr) (h : Half) : Patterns.Statement (.commitHalfPage dest h) :=
  fun _ => .inr (.inr rfl)
theorem Patterns.disarm : Patterns.Statement .disarm := fun _ => .inr (.inr rfl)
theorem Patterns.expire : Patterns.Statement .expire := fun _ => .inr (.inr rfl)
theorem Patterns.tryJump (base : Addr) : Patterns.Statement (.tryJump base) :=
  fun _ => .inr (.inr rfl)
theorem Patterns.teardownAll : Patterns.Statement .teardownAll := fun _ => .inr (.inr rfl)
theorem Patterns.rebootOp : Patterns.Statement .rebootOp := fun _ => .inr (.inr rfl)
theorem Patterns.selfReset : Patterns.Statement .selfReset := fun _ => .inr (.inr rfl)
theorem Patterns.warmReset : Patterns.Statement .warmReset := fun _ => .inr (.inr rfl)

end Sys2Proof.Laws
end

