-- ==== Sys2Proof/Tests/Slice0.lean ====
section
/-! SUPPORT. Tests: the smoke test of WellFormed, words written out from the spec's encodings, one
step of each instruction (expected results from 95_test_vectors.md where it has one, else worked out
by hand from the rule named), and for each obligation that has hypotheses a witness that meets them. -/

namespace Sys2Proof.Tests

open Sys2Proof Sys2Proof.Machine

/-! ### Small states, under `T0` -/

/-- The reset state of `T0` (R46). -/
def atReset : State := State.resetWith .t0

/-- `S_CC` of 95_test_vectors.md, at a given `SEQ`. -/
def inCC (q : Seq) : State :=
  { atReset with mode := .commandAndControl, seq := q, sup := .disarmed }

/-- `S_CC` of 95_test_vectors.md: inside `receive_command`. -/
def receiving : State := { inCC .cRecv with idleIe := true }

/-- `S_PM` of 95_test_vectors.md, at a given `SEQ`. -/
def inPM (q : Seq) : State :=
  { atReset with
    mode := .programmerMode, seq := q, sup := .disarmed
    dmaEn := true, rxDma := true, idleIe := true }

/-- A state at one of the closing steps of a session. -/
def closing (q : Seq) : State :=
  { atReset with mode := .programmerMode, seq := q, sup := .disarmed, msgDone := true, idleCnt := 2 }

/-- A captured frame of one payload byte, at the dispatch. -/
def captured (c : Byte) : State :=
  { (inCC .cDispatch).setBufByte 0 c with rxLen := 1, msgDone := true, idleCnt := 2 }

/-- The image header `HDR` of 95_test_vectors.md at `APP_BASE`. -/
def header : Memory :=
  [(0x4000, 0x00#8), (0x4001, 0x20#8), (0x4002, 0x00#8), (0x4003, 0x20#8),
   (0x4004, 0xC1#8), (0x4005, 0x40#8), (0x4006, 0x00#8), (0x4007, 0x00#8)]

/-- The bootloader's two words of vector H6v at `BOOT_BASE`. -/
def bootWords : Memory :=
  [(0, 0x00#8), (1, 0x10#8), (2, 0x00#8), (3, 0x20#8),
   (4, 0xC1#8), (5, 0x00#8), (6, 0x00#8), (7, 0x00#8)]

/-- The sentinel in the last word of the address space. -/
def topWord : Memory :=
  [(0xFFFFFFFC, 0x00#8), (0xFFFFFFFD, 0x20#8), (0xFFFFFFFE, 0x00#8), (0xFFFFFFFF, 0x20#8)]

/-- The sentinel in the last word but one of the address space. -/
def topImage : Memory :=
  [(0xFFFFFFF8, 0x00#8), (0xFFFFFFF9, 0x20#8), (0xFFFFFFFA, 0x00#8), (0xFFFFFFFB, 0x20#8)]

/-- What a state shows, where the outcome is a next state. -/
def look {α : Type} (f : State → α) : Result → Option α
  | .next t => some (f t)
  | _ => none

/-- The mnemonic of a refusal by a step that is not enabled. -/
def turnedAway : Result → Option String
  | .refused (.notEnabled m) => some m
  | _ => none

/-! ### WellFormed refuses an ill-formed term for each of its checks -/

theorem test_wellFormed_actIgnored :
    (Instr.actIgnored 0xA5#8).wellFormed .t0 = false ∧
    (Instr.actIgnored 0x5A#8).wellFormed .t0 = true := by decide

theorem test_wellFormed_cmdIgnored :
    (Instr.cmdIgnored 0x01#8).wellFormed .t0 = false ∧
    (Instr.cmdIgnored 0x02#8).wellFormed .t0 = false ∧
    (Instr.cmdIgnored 0x03#8).wellFormed .t0 = false ∧
    (Instr.cmdIgnored 0x00#8).wellFormed .t0 = true := by decide

/-! ### Decoding: words written out from R91, R92, R93, R96 under `T0` -/

theorem test_decode_activate : decode .t0 .a [.byte 0b10100101#8] = .ok .activate := by decide
theorem test_decode_actIgnored :
    decode .t0 .a [.byte 0b00000010#8] = .ok (.actIgnored 0x02#8) := by decide
theorem test_decode_runApp :
    decode .t0 .c [.byte 0b01011010#8, .byte 0b01011010#8, .byte 0b00000001#8, .idle, .idle] =
      .ok .runApp := by decide
theorem test_decode_enterProg :
    decode .t0 .c [.byte 0b01011010#8, .byte 0b01011010#8, .byte 0b00000010#8, .byte 0x99#8,
      .byte 0x98#8, .idle, .idle] = .ok .enterProg := by decide
theorem test_decode_reboot :
    decode .t0 .c [.byte 0b01011010#8, .byte 0b00010001#8, .byte 0b01011010#8, .byte 0b01011010#8,
      .byte 0b00000011#8, .idle, .idle] = .ok .reboot := by decide
theorem test_decode_cmdIgnored :
    decode .t0 .c [.byte 0b01011010#8, .byte 0b01011010#8, .byte 0b10100101#8, .idle, .idle] =
      .ok (.cmdIgnored 0xA5#8) := by decide
theorem test_decode_emptyFrame :
    decode .t0 .c [.byte 0b01011010#8, .byte 0b01011010#8, .idle, .idle] = .ok .emptyFrame := by
  decide
theorem test_decode_imageByte :
    decode .t0 .p [.byte 0b10100101#8] = .ok (.imageByte 0xA5#8) := by decide
theorem test_decode_unterminated :
    decode .t0 .c [.byte 0x5A#8, .byte 0x5A#8, .byte 0x02#8, .idle] = .error .unterminated ∧
    decode .t0 .c [.idle, .byte 0x5A#8, .byte 0x5A#8, .byte 0x02#8, .idle, .idle] =
      .ok .enterProg ∧
    decode .t0 .a [] = .error .notOneByte := by decide
theorem test_decodeTableWord :
    decodeTableWord 8 0xA5 = some .activate ∧ decodeTableWord 8 0x01 = some .runApp ∧
    decodeTableWord 8 0x02 = some .enterProg ∧ decodeTableWord 8 0x03 = some .reboot ∧
    decodeTableWord 8 0x5A = some (.cmdIgnored 0x5A#8) ∧ decodeTableWord 0 0 = some .emptyFrame ∧
    decodeTableWord 16 0x9902 = some .enterProg ∧ decodeTableWord 7 0x01 = none := by decide

/-! ### Wire rows -/

theorem test_activate : look (fun t => (t.mode, t.seq, t.sup)) (exec .activate atReset) =
    some (.commandAndControl, .cEnter, .disarmed) := by decide
theorem test_actIgnored : look (fun t => (t.mode, t.seq, t.idleCnt)) (exec (.actIgnored 0x5A#8)
    { atReset with idleCnt := 1 }) = some (.awaitingActivation, .aPoll, 0) := by decide
theorem test_runApp : look State.seq (exec .runApp (captured 0x01#8)) = some .rTeardown := by decide +kernel
theorem test_enterProg : look State.seq (exec .enterProg (captured 0x02#8)) = some .gClear ∧
    turnedAway (exec .enterProg (captured 0x01#8)) = some "ENTER_PROG" := by decide +kernel
theorem test_reboot : look State.seq (exec .reboot (captured 0x03#8)) = some .bTeardown := by decide +kernel
theorem test_cmdIgnored : look State.seq (exec (.cmdIgnored 0x7E#8) (captured 0x7E#8)) =
    some .cEnter := by decide +kernel
/-- Vector E12: stale buffer contents are not decoded. -/
theorem test_emptyFrame : look State.seq (exec .emptyFrame { captured 0x02#8 with rxLen := 0 }) =
    some .cEnter := by decide
theorem test_imageByte : look (fun t => (t.bufByte 0, t.dmaIdx)) (exec (.imageByte 0x10#8)
    (inPM .pErase)) = some (0x10#8, 1) := by decide +kernel

/-! ### Events and handlers -/

/-- Vector X1. -/
theorem test_reset : look (fun t => (t.halted, t.seq, t.sup, t.remain, t.flash.read 0x4004))
    (exec .reset { inPM .pWrite with halted := true, teif := true, remain := 2, flash := header }) =
    some (false, .aPoll, .armed, 5, 0xC1#8) := by decide
/-- Vectors E1 and F9. -/
theorem test_rx : look (fun t => (t.mode, t.seq)) (exec (.rx 0x5A#8) atReset) =
    some (.awaitingActivation, .aPoll) ∧
    look (fun t => (t.idleCnt, t.rxLen, t.msgDone)) (exec (.rx 0x33#8)
      { receiving with idleCnt := 2, msgDone := true, idleIe := false }) = some (0, 0, true) := by
  decide
/-- Vectors F5 and F15. -/
theorem test_idle : look State.idleIf (exec .idle { receiving with idleIf := true }) = some true ∧
    look State.idleIf (exec .idle atReset) = some false := by decide
/-- Vectors T1 and T10. -/
theorem test_tick : look (fun t => (t.tif, t.remain)) (exec .tick atReset) = some (true, 5) ∧
    look State.tif (exec .tick receiving) = some false := by decide
/-- Vectors C11 and C13. -/
theorem test_te : look (fun t => (t.teif, t.seq)) (exec .te (inPM .pCheck)) =
    some (true, .pCheck) ∧ look State.teif (exec .te receiving) = some false := by decide
/-- Vector C4. -/
theorem test_irqHt : look (fun t => (t.htif, t.capstat)) (exec .irqHt
    { inPM .pCheck with htif := true, dmaIdx := 128 }) = some (false, .firstHalfReady) := by decide
/-- Vector C7, its second handler. -/
theorem test_irqTc : look (fun t => (t.tcif, t.capstat, t.dmaIdx, t.rxEn, t.dmaEn)) (exec .irqTc
    { inPM .pCheck with tcif := true, dmaIdx := 256, capstat := .firstHalfReady }) =
    some (false, .secondHalfReady, 0, true, true) := by decide
/-- Vector C12. -/
theorem test_irqTe : look (fun t => (t.halted, t.teif)) (exec .irqTe
    { inPM .pCheck with teif := true }) = some (true, true) := by decide
/-- Vectors F2 and F7. -/
theorem test_irqIdle : look (fun t => (t.idleCnt, t.msgDone, t.idleIe)) (exec .irqIdle
    { receiving with idleIf := true }) = some (1, false, true) ∧
    look (fun t => (t.idleCnt, t.msgDone, t.idleIe)) (exec .irqIdle
      { receiving with idleIf := true, idleCnt := 1 }) = some (2, true, false) := by decide
/-- Vector T6. -/
theorem test_irqTim : look (fun t => (t.sup, t.remain, t.seq, t.handoff)) (exec .irqTim
    { atReset with tif := true, remain := 1, flash := header }) =
    some (.expired, 0, .gone, some { base := 0x4000#32, sp := 0x20002000#32, entry := 0x40C1#32 }) := by
  decide
/-- Vectors X5 and X6. -/
theorem test_irq_not_enabled : turnedAway (exec .irqTim atReset) = some "IRQ_TIM" ∧
    turnedAway (exec .irqHt receiving) = some "IRQ_HT" := by decide

/-! ### Routes of RX -/

/-- Vector F16. -/
theorem test_rxOff : look (fun t => (t.idleCnt, t.seq)) (exec (.rxOff 0xA5#8)
    { inCC .rJump with rxEn := false, idleCnt := 2 }) = some (2, .rJump) := by decide
/-- Vector F10. -/
theorem test_rxUnheard : look State.frame (exec (.rxUnheard 0x5A#8)
    { captured 0x7E#8 with frame := .messageActive }) = some .messageActive := by decide
/-- Vector T9. -/
theorem test_rxActivation : look (fun t => (t.seq, t.sup)) (exec (.rxActivation 0xA5#8)
    { atReset with sup := .expired, remain := 0 }) = some (.cEnter, .expired) := by decide
theorem test_rxFrameIdle : look State.frame (exec (.rxFrameIdle 0x5A#8) receiving) =
    some .startDetectedOnce ∧
    look State.frame (exec (.rxFrameIdle 0x11#8) receiving) = some .idle := by decide
theorem test_rxFrameStart1 : look State.frame (exec (.rxFrameStart1 0x11#8)
    { receiving with frame := .startDetectedOnce }) = some .idle ∧
    look State.frame (exec (.rxFrameStart1 0x5A#8)
      { receiving with frame := .startDetectedOnce }) = some .messageActive := by decide
/-- Vectors F1 and F12. -/
theorem test_rxFrameActive : look (fun t => (t.bufByte 0, t.rxLen)) (exec (.rxFrameActive 0x5A#8)
    { receiving with frame := .messageActive }) = some (0x5A#8, 1) ∧
    look (fun t => (t.fault, t.seq, t.rxLen)) (exec (.rxFrameActive 0x01#8)
      { receiving with frame := .messageActive, rxLen := 256 }) =
      some (some .rxOverflow, .faulted, 256) := by decide +kernel
/-- Vector C3. -/
theorem test_rxDmaStore : look (fun t => (t.bufByte 127, t.dmaIdx, t.htif, t.capstat))
    (exec (.rxDmaStore 0x7F#8) { inPM .pCheck with dmaIdx := 127 }) =
    some (0x7F#8, 128, true, .none) := by decide +kernel
/-- Vector C6. -/
theorem test_rxDmaDrop : look (fun t => (t.dmaIdx, t.idleCnt)) (exec (.rxDmaDrop 0xAA#8)
    { inPM .pCheck with dmaIdx := 256, tcif := true, htif := true, idleCnt := 1 }) =
    some (256, 0) := by decide

/-! ### Sequencer steps -/

theorem test_stepAPoll : look State.seq (exec .stepAPoll atReset) = some .aPoll := by decide
theorem test_stepCEnter : look (fun t => (t.seq, t.frame, t.idleIe, t.idleIf, t.rxLen)) (exec
    .stepCEnter { inCC .cEnter with frame := .messageActive, rxLen := 3, msgDone := true }) =
    some (.cRecv, .idle, true, false, 0) := by decide
/-- Vector F13. -/
theorem test_stepCRecv : look State.seq (exec .stepCRecv receiving) = some .cRecv ∧
    look State.seq (exec .stepCRecv { receiving with msgDone := true }) = some .cDispatch := by
  decide
theorem test_stepCDispatch : look State.seq (exec .stepCDispatch (captured 0x02#8)) =
    some .gClear ∧ look State.seq (exec .stepCDispatch (captured 0xA5#8)) = some .cEnter := by decide +kernel
/-- Vector H5v. -/
theorem test_stepRTeardown : look (fun t => (t.rxEn, t.idleIe, t.dmaEn, t.sup, t.seq)) (exec
    .stepRTeardown (inCC .rTeardown)) = some (false, false, false, .disarmed, .rJump) := by decide
/-- Program P2, its `R_JUMP`, and program P3's continuation. -/
theorem test_stepRJump : look (fun t => (t.seq, t.rxEn, t.notFounds)) (exec .stepRJump
    { inCC .rJump with rxEn := false }) = some (.cEnter, false, [0x4000#32]) ∧
    look (fun t => (t.seq, t.corePc)) (exec .stepRJump
      { inCC .rJump with rxEn := false, flash := header }) = some (.gone, 0x40C1#32) := by decide
theorem test_stepGClear : look (fun t => (t.bufByte 0, t.bufByte 255, t.seq)) (exec .stepGClear
    { (inCC .gClear).setBufByte 255 0xEE#8 with rxLen := 1 }) = some (0#8, 0#8, .gArm) := by decide
theorem test_stepGArm : look (fun t => (t.dmaEn, t.rxDma, t.idleIe, t.curAddr, t.curPages, t.mode))
    (exec .stepGArm { inCC .gArm with curAddr := 0x4100#32, curPages := 1 }) =
    some (true, true, true, 0x4000#32, 0, .programmerMode) := by decide
theorem test_stepBTeardown : look (fun t => (t.rxEn, t.seq)) (exec .stepBTeardown
    (inCC .bTeardown)) = some (false, .bJump) := by decide
/-- Vector H6v. -/
theorem test_stepBJump : look (fun t => (t.seq, t.sup, t.remain, t.reboots)) (exec .stepBJump
    { inCC .bJump with rxEn := false, remain := 4, flash := bootWords }) =
    some (.aPoll, .armed, 5,
      [{ base := 0x0#32, sp := 0x20001000#32, entry := 0xC1#32 }]) := by decide
/-- Vectors M1 and M10. -/
theorem test_stepPCheck : look (fun t => (t.seq, t.latch, t.capstat)) (exec .stepPCheck
    { inPM .pCheck with capstat := .firstHalfReady, latch := .second }) =
    some (.pErase, .first, .firstHalfReady) ∧
    look State.seq (exec .stepPCheck
      { inPM .pCheck with capstat := .firstHalfReady, msgDone := true }) = some .eStop := by decide
/-- Vectors M2 and M11. -/
theorem test_stepPErase : look (fun t => (t.seq, t.flash)) (exec .stepPErase
    { inPM .pErase with flash := [(0x3FFF, 0x77#8), (0x4000, 0x77#8), (0x40FF, 0x77#8), (0x4100, 0x77#8)] }) =
    some (.pWrite, [(0x3FFF, 0x77#8), (0x4100, 0x77#8)]) ∧
    look (fun t => (t.seq, t.fault)) (exec .stepPErase { inPM .pErase with curAddr := 0x8000#32 }) =
      some (.faulted, some .flashRange) := by decide +kernel
/-- Program P5's kind of fault at the write, and one byte of vector M6. -/
theorem test_stepPWrite : look (fun t => (t.seq, t.fault)) (exec .stepPWrite
    { inPM .pWrite with latch := .second }) = some (.faulted, some .flashContract) ∧
    look (fun t => (t.seq, t.flash.read 0x40FF, t.flash.read 0x4080)) (exec .stepPWrite
      { (inPM .pWrite).setBufByte 255 0x02#8 with latch := .second, curAddr := 0x4080#32 }) =
      some (.pAdvance, 0x02#8, 0x00#8) := by decide +kernel
/-- Vectors M4 and M6. -/
theorem test_stepPAdvance : look (fun t => (t.curAddr, t.curPages, t.seq)) (exec .stepPAdvance
    (inPM .pAdvance)) = some (0x4080#32, 0, .pClear) ∧
    look (fun t => (t.curAddr, t.curPages)) (exec .stepPAdvance
      { inPM .pAdvance with latch := .second, curAddr := 0x4080#32 }) = some (0x4100#32, 1) := by
  decide
theorem test_stepPClear : look (fun t => (t.capstat, t.seq)) (exec .stepPClear
    { inPM .pClear with capstat := .secondHalfReady }) = some (.none, .pCheck) := by decide
/-- Vector C10. -/
theorem test_stepEStop : look (fun t => (t.htif, t.dmaEn, t.rxDma, t.idleIe, t.dmaIdx, t.seq))
    (exec .stepEStop { inPM .eStop with htif := true, dmaIdx := 128 }) =
    some (false, false, false, false, 128, .eReport) := by decide
theorem test_stepEReport : look (fun t => (t.reports, t.curPages, t.seq)) (exec .stepEReport
    { closing .eReport with curPages := 2, reports := [1] }) = some ([1, 2], 0, .eRewind) := by decide
theorem test_stepERewind : look (fun t => (t.curAddr, t.seq)) (exec .stepERewind
    { closing .eRewind with curAddr := 0x4200#32 }) = some (0x4000#32, .eClear) := by decide
theorem test_stepEClear : look (fun t => (t.bufByte 3, t.msgDone, t.idleCnt, t.dmaIdx, t.seq))
    (exec .stepEClear { (closing .eClear).setBufByte 3 0x77#8 with dmaIdx := 44 }) =
    some (0#8, false, 0, 0, .eFallback) := by decide
theorem test_stepEFallback : look (fun t => (t.mode, t.seq)) (exec .stepEFallback
    (closing .eFallback)) = some (.commandAndControl, .cEnter) := by decide

/-! ### Named operations -/

theorem test_receiveCommand : look (fun t => (t.seq, t.idleIe)) (exec .receiveCommand
    (inCC .cEnter)) = some (.cRecv, true) ∧
    look (fun t => (t.seq, t.rxLen, t.bufByte 0)) (exec .receiveCommand { inCC .cEnter with
      schedule := linkRun [.byte 0x5A#8, .byte 0x5A#8, .byte 0x02#8, .idle, .idle] ++ [.step] }) =
      some (.cDispatch, 1, 0x02#8) := by decide +kernel
theorem test_startCapture : look (fun t => (t.dmaEn, t.dmaIdx, t.rxDma, t.capstat)) (exec
    (.startCapture .receiveBuffer) { receiving with dmaIdx := 7, capstat := .firstHalfReady }) =
    some (true, 0, true, .none) := by decide
theorem test_stopCapture : look (fun t => (t.htif, t.dmaEn, t.capstat)) (exec .stopCapture
    { inPM .pCheck with htif := true, capstat := .secondHalfReady }) =
    some (false, false, .secondHalfReady) := by decide
/-- Vectors P2v, P3v, P4v. -/
theorem test_flashErasePage : look State.fault (exec (.flashErasePage 0x4080#32) atReset) =
    some (some .flashContract) ∧
    look State.fault (exec (.flashErasePage 0x8000#32) atReset) = some (some .flashRange) ∧
    look State.fault (exec (.flashErasePage 0x3F00#32) atReset) = some (some .flashRange) := by
  decide
/-- Vectors P8v, P9v, and one byte of P7v. -/
theorem test_flashWriteHalf : look State.fault (exec (.flashWriteHalf 0x4040#32 .first) atReset) =
    some (some .flashContract) ∧
    look State.fault (exec (.flashWriteHalf 0x8000#32 .first) atReset) =
      some (some .flashRange) ∧
    look (fun t => t.flash.read 0x4080) (exec (.flashWriteHalf 0x4080#32 .second)
      (atReset.setBufByte 128 0x80#8)) = some 0x80#8 := by decide +kernel
/-- Vectors P11v, P12v, and P10v at three bytes. -/
theorem test_commitHalfPage : look State.fault (exec (.commitHalfPage 0x4080#32 .first) atReset) =
    some (some .flashContract) ∧
    look State.fault (exec (.commitHalfPage 0x4000#32 .second) atReset) =
      some (some .flashContract) ∧
    look (fun t => (t.flash.read 0x4000, t.flash.read 0x4080, t.flash.read 0x4100)) (exec
      (.commitHalfPage 0x4000#32 .first)
      { atReset.setBufByte 0 0x11#8 with flash := [(0x4080, 0x77#8), (0x4100, 0x77#8)] }) =
      some (0x11#8, 0xFF#8, 0x77#8) := by decide +kernel
/-- Vector T4. -/
theorem test_disarm : look (fun t => (t.sup, t.tif, t.remain)) (exec .disarm
    { atReset with remain := 2, tif := true }) = some (.disarmed, false, 2) := by decide
/-- Vector T7. -/
theorem test_expire : look (fun t => (t.sup, t.seq, t.notFounds, t.rxEn)) (exec .expire atReset) =
    some (.expired, .aPoll, [0x4000#32], true) := by decide
/-- Vectors H1v and H4v. -/
theorem test_tryJump : look (fun t => (t.coreSp, t.corePc, t.handoff)) (exec (.tryJump 0x4000#32)
    { atReset with flash := header }) = some (0x20002000#32, 0x40C1#32,
      some { base := 0x4000#32, sp := 0x20002000#32, entry := 0x40C1#32 }) ∧
    look (fun t => (t.handoff, t.notFounds)) (exec (.tryJump 0x4000#32) { atReset with
      flash := [(0x4000, 0x20#8), (0x4001, 0x00#8), (0x4002, 0x20#8), (0x4003, 0x00#8)] }) =
      some (none, [0x4000#32]) := by decide
theorem test_teardownAll : look (fun t => (t.rxEn, t.dmaEn, t.sup, t.tif, t.msgDone)) (exec
    .teardownAll { atReset with tif := true, msgDone := true }) =
    some (false, false, .disarmed, false, true) := by decide
theorem test_rebootOp : look (fun t => (t.coreSp, t.corePc, t.handoff)) (exec .rebootOp
    { receiving with flash := bootWords }) = some (0x20001000#32, 0xC1#32, none) := by decide
theorem test_selfReset : look (fun t => (t.reboots.length, t.seq)) (exec .selfReset
    { receiving with flash := bootWords }) = some (1, .aPoll) := by decide
theorem test_warmReset : look (fun t => (t.seq, t.reports)) (exec .warmReset
    { closing .eClear with reports := [2] }) = some (.aPoll, [2]) := by decide

/-! ### Witnesses: concrete states that meet the hypotheses of each obligation -/

theorem witness_ByteIgnoredWhenOffOrTerminal :
    ¬ ({ inPM .pCheck with halted := true } : State).live ∧ ¬ (inCC .gone).live ∧
    ¬ (inCC .faulted).live ∧ ({ inCC .rJump with rxEn := false } : State).live ∧
    ({ inCC .rJump with rxEn := false } : State).rxEn = false := by decide

theorem witness_ByteUnheardClearsIdleCount : ∃ s : State, s.live ∧ s.rxEn = true ∧
    s.rxDma = false ∧ s.seq ≠ .aPoll ∧ (s.seq = .cRecv → s.msgDone = true) :=
  ⟨{ receiving with msgDone := true }, by decide⟩

theorem witness_ActivationByteDisarmsAndEnters : ∃ s : State, s.live ∧ s.rxEn = true ∧
    s.rxDma = false ∧ s.seq = .aPoll ∧ 0xA5#8 = s.params.activationByte ∧
    0xA4#8 ≠ s.params.activationByte ∧ s.mode = .awaitingActivation :=
  ⟨{ atReset with tif := true, remain := 1 }, by decide⟩

theorem witness_StartSequenceNeedsTwoSentinels : ∃ s u : State,
    (s.live ∧ s.rxEn = true ∧ s.rxDma = false ∧ s.seq = .cRecv ∧ s.msgDone = false ∧
      s.frame = .idle) ∧
    (u.live ∧ u.rxEn = true ∧ u.rxDma = false ∧ u.seq = .cRecv ∧ u.msgDone = false ∧
      u.frame = .startDetectedOnce) :=
  ⟨receiving, { receiving with frame := .startDetectedOnce }, by decide⟩

theorem witness_PayloadByteAppendedOrOverflows : ∃ s u : State,
    (s.live ∧ s.rxEn = true ∧ s.rxDma = false ∧ s.seq = .cRecv ∧ s.msgDone = false ∧
      s.frame = .messageActive ∧ s.rxLen = 255) ∧
    (u.live ∧ u.rxEn = true ∧ u.rxDma = false ∧ u.seq = .cRecv ∧ u.msgDone = false ∧
      u.frame = .messageActive ∧ 256 ≤ u.rxLen) :=
  ⟨{ receiving with frame := .messageActive, rxLen := 255 },
    { receiving with frame := .messageActive, rxLen := 256 }, by decide⟩

theorem witness_DmaStoreRaisesTransferFlags : ∃ s : State, s.live ∧ s.rxEn = true ∧
    s.rxDma = true ∧ s.dmaEn = true ∧ s.dmaIdx < 256 ∧ s.dmaIdx + 1 = 256 ∧
    s.mode = .programmerMode :=
  ⟨{ inPM .pWrite with dmaIdx := 255 }, by decide⟩

theorem witness_DmaDropLosesByte : ∃ s u : State,
    (s.live ∧ s.rxEn = true ∧ s.rxDma = true ∧ s.dmaEn = false) ∧
    (u.live ∧ u.rxEn = true ∧ u.rxDma = true ∧ 256 ≤ u.dmaIdx) :=
  ⟨{ inPM .pCheck with dmaEn := false }, { inPM .pCheck with dmaIdx := 256, tcif := true },
    by decide⟩

theorem witness_IdleAndTickLatchWhenEnabled :
    (receiving.live ∧ receiving.rxEn = true ∧ receiving.idleIe = true) ∧
    ¬ (atReset.live ∧ atReset.rxEn = true ∧ atReset.idleIe = true) ∧
    (atReset.live ∧ atReset.sup = .armed) ∧ ¬ (receiving.live ∧ receiving.sup = .armed) := by decide

theorem witness_TransferErrorEventSetsPending :
    ((inPM .pWrite).live ∧ (inPM .pWrite).dmaEn = true) ∧
    ¬ (receiving.live ∧ receiving.dmaEn = true) := by decide

/-- Both transfer flags and the transfer error pending at once. -/
def pending : State :=
  { inPM .pCheck with htif := true, tcif := true, teif := true, dmaIdx := 256 }

theorem witness_TransferHandlersSetReady :
    pending.live ∧ pending.dmaEn = true ∧ pending.htif = true ∧ pending.tcif = true := by decide

theorem witness_TransferErrorHandlerHalts :
    pending.live ∧ pending.dmaEn = true ∧ pending.teif = true := by decide

theorem witness_IdleHandlerCompletesAtTwo : ∃ s u : State,
    (s.live ∧ s.idleIf = true ∧ s.idleIe = true ∧ s.idleCnt + 1 ≠ 2) ∧
    (u.live ∧ u.idleIf = true ∧ u.idleIe = true ∧ u.idleCnt + 1 = 2) :=
  ⟨{ receiving with idleIf := true }, { receiving with idleIf := true, idleCnt := 1 }, by decide⟩

/-- A tick pending with `n` ticks left, over a given flash. -/
def ticking (n : Nat) (m : Memory) : State :=
  { atReset with tif := true, remain := n, flash := m }

theorem witness_TimerHandlerCountsDownAndExpires :
    ((ticking 2 []).live ∧ (ticking 2 []).tif = true ∧ (ticking 2 []).sup = .armed ∧
      2 ≤ (ticking 2 []).remain) ∧
    ((ticking 1 header).live ∧ (ticking 1 header).tif = true ∧ (ticking 1 header).sup = .armed ∧
      (ticking 1 header).remain = 1 ∧ (ticking 1 header).params.valid = true ∧
      header.word (ticking 1 header).params.appBase.toNat =
        (ticking 1 header).params.spSentinel) ∧
    ((ticking 1 []).remain = 1 ∧ (ticking 1 []).params.valid = true ∧
      Memory.word [] (ticking 1 []).params.appBase.toNat ≠ (ticking 1 []).params.spSentinel) := by
  decide

/-- The invariant in states of the kinds its obligations speak of. -/
theorem inv_atReset : atReset.Inv := by
  refine ⟨⟨?_, ?_, ?_, ?_, ?_, ?_, ?_⟩,
    ⟨?_, ?_, ?_, ?_, ?_, ?_, ?_, ?_, ?_, ?_, ?_, ?_, ?_, ?_, ?_⟩,
    ⟨?_, ?_, ?_, ?_, ?_, ?_, ?_, ?_⟩⟩ <;> decide

theorem inv_ticking : (ticking 1 header).Inv := by
  refine ⟨⟨?_, ?_, ?_, ?_, ?_, ?_, ?_⟩,
    ⟨?_, ?_, ?_, ?_, ?_, ?_, ?_, ?_, ?_, ?_, ?_, ?_, ?_, ?_, ?_⟩,
    ⟨?_, ?_, ?_, ?_, ?_, ?_, ?_, ?_⟩⟩ <;> decide

theorem inv_pending : pending.Inv := by
  refine ⟨⟨?_, ?_, ?_, ?_, ?_, ?_, ?_⟩,
    ⟨?_, ?_, ?_, ?_, ?_, ?_, ?_, ?_, ?_, ?_, ?_, ?_, ?_, ?_, ?_⟩,
    ⟨?_, ?_, ?_, ?_, ?_, ?_, ?_, ?_⟩⟩ <;> decide

theorem inv_receiving : ({ receiving with idleIf := true, frame := .messageActive } : State).Inv := by
  refine ⟨⟨?_, ?_, ?_, ?_, ?_, ?_, ?_⟩,
    ⟨?_, ?_, ?_, ?_, ?_, ?_, ?_, ?_, ?_, ?_, ?_, ?_, ?_, ?_, ?_⟩,
    ⟨?_, ?_, ?_, ?_, ?_, ?_, ?_, ?_⟩⟩ <;> decide

theorem inv_gArm : (inCC .gArm).Inv := by
  refine ⟨⟨?_, ?_, ?_, ?_, ?_, ?_, ?_⟩,
    ⟨?_, ?_, ?_, ?_, ?_, ?_, ?_, ?_, ?_, ?_, ?_, ?_, ?_, ?_, ?_⟩,
    ⟨?_, ?_, ?_, ?_, ?_, ?_, ?_, ?_⟩⟩ <;> decide

/-- An erase due at `APP_BASE`, over a page that is not erased. -/
def erasing : State :=
  { inPM .pErase with flash := [(0x4000, 0x77#8)], capstat := .firstHalfReady, dmaIdx := 128 }

theorem inv_erasing : erasing.Inv := by
  refine ⟨⟨?_, ?_, ?_, ?_, ?_, ?_, ?_⟩,
    ⟨?_, ?_, ?_, ?_, ?_, ?_, ?_, ?_, ?_, ?_, ?_, ?_, ?_, ?_, ?_⟩,
    ⟨?_, ?_, ?_, ?_, ?_, ?_, ?_, ?_⟩⟩ <;> decide

theorem witness_HandlerEnabledExactlyWhenPending :
    pending.Inv ∧ (pending.htif = true ∧ pending.dmaEn = true ∧ pending.live) ∧
    (ticking 1 header).Inv ∧ (ticking 1 header).tif = true ∧
    ({ receiving with idleIf := true, frame := .messageActive } : State).Inv :=
  ⟨inv_pending, by decide, inv_ticking, by decide, inv_receiving⟩

theorem witness_HandlersLeaveMainContext :
    (∃ t, runSteps [.irqHt] pending = .next t) ∧ (∃ t, runSteps [.irqTc] pending = .next t) ∧
    (∃ t, runSteps [.irqTe] pending = .next t) ∧
    (∃ t, runSteps [.irqIdle] { receiving with idleIf := true } = .next t) ∧
    (∃ t, runSteps [.irqTim] (ticking 1 header) = .next t ∧ t.seq = .gone) :=
  ⟨⟨_, rfl⟩, ⟨_, rfl⟩, ⟨_, rfl⟩, ⟨_, rfl⟩, ⟨_, rfl, by decide⟩⟩

theorem witness_ReceiveEntryAndPoll :
    (atReset.halted = false ∧ atReset.seq = .aPoll) ∧
    ((inCC .cEnter).halted = false ∧ (inCC .cEnter).seq = .cEnter) ∧
    (∃ s : State, s.halted = false ∧ s.seq = .cRecv ∧ s.msgDone = true) ∧
    (receiving.halted = false ∧ receiving.seq = .cRecv ∧ receiving.msgDone = false) :=
  ⟨by decide, by decide, ⟨{ receiving with msgDone := true }, by decide⟩, by decide⟩

theorem witness_DispatchByFirstPayloadByte : ∀ c ∈ [0x01#8, 0x02#8, 0x03#8, 0x00#8, 0xFF#8],
    (captured c).params.valid = true ∧ (captured c).seq = .cDispatch ∧
    (captured c).halted = false ∧ (captured c).rxLen ≠ 0 ∧ (captured c).bufByte 0 = c ∧
    (captured c).mode = .commandAndControl := by decide +kernel

theorem witness_DispatchByFirstPayloadByte_empty :
    (inCC .cDispatch).params.valid = true ∧ (inCC .cDispatch).seq = .cDispatch ∧
    (inCC .cDispatch).halted = false ∧ (inCC .cDispatch).rxLen = 0 ∧
    (inCC .cDispatch).mode = .commandAndControl := by decide

theorem witness_RunAppTearsDownThenJumps : (inCC .rTeardown).halted = false ∧
    (inCC .rTeardown).seq = .rTeardown ∧ (inCC .rJump).seq = .rJump ∧
    (inCC .rJump).params.valid = true ∧
    header.word (inCC .rJump).params.appBase.toNat = (inCC .rJump).params.spSentinel ∧
    Memory.word [] (inCC .rJump).params.appBase.toNat ≠ (inCC .rJump).params.spSentinel := by decide

theorem witness_EnterProgrammerClearsThenArms : (inCC .gClear).halted = false ∧
    (inCC .gClear).seq = .gClear ∧ (inCC .gArm).halted = false ∧ (inCC .gArm).seq = .gArm := by
  decide

theorem witness_RebootCommandEndsInReset : (inCC .bTeardown).halted = false ∧
    (inCC .bTeardown).seq = .bTeardown ∧ (inCC .bJump).halted = false ∧
    (inCC .bJump).seq = .bJump ∧ (inCC .bJump).params.valid = true := by decide

theorem witness_PollTestsCompletionFirst : (inPM .pCheck).halted = false ∧
    (inPM .pCheck).seq = .pCheck ∧ (inPM .pCheck).msgDone = false ∧
    (inPM .pCheck).capstat = .none ∧ erasing.capstat = .firstHalfReady ∧
    ∃ s : State, s.halted = false ∧ s.seq = .pCheck ∧ s.msgDone = true ∧
      s.capstat = .secondHalfReady :=
  ⟨rfl, rfl, rfl, rfl, rfl,
    { inPM .pCheck with msgDone := true, capstat := .secondHalfReady }, by decide⟩

/-- A flash step due at a cursor. -/
def flashDue (q : Seq) (h : Half) (a : Addr) : State :=
  { inPM q with latch := h, curAddr := a, flash := [(0x4000, 0x77#8)] }

theorem witness_EraseStepErasesCursorPage :
    (∀ a, (flashDue .pErase .first a).halted = false ∧ (flashDue .pErase .first a).seq = .pErase ∧
      (flashDue .pErase .first a).flash.wf = true) ∧
    (0x4080#32).toNat % 256 ≠ 0 ∧ (0x8000#32).toNat % 256 = 0 ∧
    ¬ (0x8000#32).toNat + 256 ≤ Params.t0.appLimit.toNat ∧
    ¬ Params.t0.appBase.toNat ≤ (0x3F00#32).toNat ∧ (0x7F00#32).toNat % 256 = 0 ∧
    (0x7F00#32).toNat + 256 ≤ Params.t0.appLimit.toNat :=
  ⟨fun _ => ⟨rfl, rfl, rfl⟩, by decide⟩

theorem witness_WriteStepWritesLatchedHalf :
    (∀ h a, (flashDue .pWrite h a).halted = false ∧ (flashDue .pWrite h a).seq = .pWrite ∧
      (flashDue .pWrite h a).latch = h ∧ (flashDue .pWrite h a).flash.wf = true) ∧
    (0x7F80#32).toNat % 256 = 128 ∧ (0x7F80#32).toNat + 128 ≤ Params.t0.appLimit.toNat ∧
    (0x8000#32).toNat % 256 = 0 ∧ ¬ (0x8000#32).toNat + 128 ≤ Params.t0.appLimit.toNat :=
  ⟨fun _ _ => ⟨rfl, rfl, rfl, rfl⟩, by decide⟩

theorem witness_AdvanceCursorThenClearStatus : (inPM .pAdvance).halted = false ∧
    (inPM .pAdvance).seq = .pAdvance ∧ (inPM .pClear).halted = false ∧
    (inPM .pClear).seq = .pClear := by decide

theorem witness_SessionClosingSteps :
    ∀ q ∈ [Seq.eStop, .eReport, .eRewind, .eClear, .eFallback],
      (closing q).halted = false ∧ (closing q).seq = q := by decide

theorem witness_StepEnabledExactlyAtItsValue :
    stepInstr .aPoll = some .stepAPoll ∧ stepInstr .bJump = some .stepBJump := by decide

theorem witness_DisarmAndTeardown : atReset.sup = .armed ∧ receiving.sup ≠ .armed := by decide

/-- The memory and the operands of the flash operations' clauses: contract, range, and the lowest
and highest page of the region. -/
theorem witness_FlashOperations : erasing.flash.wf = true ∧ erasing.params.valid = true ∧
    (0x4080#32).toNat % 256 ≠ 0 ∧ (0x4040#32).toNat % 128 ≠ 0 ∧ (0x4000#32).toNat % 256 ≠ 128 ∧
    ¬ (erasing.params.appBase.toNat ≤ (0x3F00#32).toNat ∧
      (0x3F00#32).toNat + 256 ≤ erasing.params.appLimit.toNat) ∧
    ¬ (erasing.params.appBase.toNat ≤ (0x3F80#32).toNat ∧
      (0x3F80#32).toNat + 128 ≤ erasing.params.appLimit.toNat) ∧
    erasing.params.appBase.toNat ≤ (0x4000#32).toNat ∧
    (0x7F00#32).toNat + 256 ≤ erasing.params.appLimit.toNat ∧
    (0x7F80#32).toNat + 128 ≤ erasing.params.appLimit.toNat := by decide

theorem witness_ErasePageOperation : erasing.flash.wf = true ∧ (0x4080#32).toNat % 256 ≠ 0 ∧
    (0x7F00#32).toNat % 256 = 0 ∧ erasing.params.appBase.toNat ≤ (0x7F00#32).toNat ∧
    (0x7F00#32).toNat + 256 ≤ erasing.params.appLimit.toNat := by decide

theorem witness_WriteHalfOperation : erasing.flash.wf = true ∧ (0x4040#32).toNat % 128 ≠ 0 ∧
    (0x7F80#32).toNat % 128 = 0 ∧ erasing.params.appBase.toNat ≤ (0x7F80#32).toNat ∧
    (0x7F80#32).toNat + 128 ≤ erasing.params.appLimit.toNat := by decide

theorem witness_CommitErasesOnlyWithFirstHalf : erasing.flash.wf = true ∧
    erasing.params.valid = true ∧ (0x4000#32).toNat % 256 = 0 ∧ (0x7F80#32).toNat % 256 = 128 ∧
    erasing.params.appBase.toNat ≤ (0x4000#32).toNat ∧
    (0x4000#32).toNat + 256 ≤ erasing.params.appLimit.toNat ∧
    (0x7F80#32).toNat + 128 ≤ erasing.params.appLimit.toNat := by decide

/-- The last base of each clause: both words inside the address space, the first word inside it. -/
theorem witness_TryJumpChecksSentinel : (0xFFFFFFF8#32).toNat + 8 ≤ 4294967296 ∧
    Memory.word topImage (0xFFFFFFF8#32).toNat = atReset.params.spSentinel ∧
    (0xFFFFFFFC#32).toNat + 4 ≤ 4294967296 ∧
    Memory.word [] (0xFFFFFFFC#32).toNat ≠ atReset.params.spSentinel := by decide

/-- At the last base of all the entry word is read past the address space, and the hand-off is still
recorded, with the first word of flash. -/
theorem test_tryJump_pastSpace : look (fun t => (t.coreSp, t.handoff.isSome, t.draws))
    (exec (.tryJump 0xFFFFFFFC#32) { atReset with flash := topWord }) =
    some (0x20002000#32, true, 1) := by decide

theorem witness_ExpireDeinitialisesThenJumps : (ticking 0 header).params.valid = true ∧
    header.word (ticking 0 header).params.appBase.toNat = (ticking 0 header).params.spSentinel ∧
    Memory.word [] (ticking 0 []).params.appBase.toNat ≠ (ticking 0 []).params.spSentinel := by
  decide

theorem witness_RebootAndSelfResetOperations : receiving.params.valid = true := by decide

theorem witness_ReceiveCommandBlocksOnSilence : (inCC .cEnter).seq = .cEnter ∧
    (inCC .cEnter).halted = false ∧ (inCC .cEnter).schedule = [] := by decide

theorem witness_StepRunsFetchedInstruction :
    (∃ s : State, s.schedule = [.rx 0xA5#8] ∧
      fetch (.rx 0xA5#8) { s with schedule := [] } = some .activate) ∧
    atReset.schedule = [] ∧ fetch .step atReset = some .stepAPoll :=
  ⟨⟨{ atReset with schedule := [.rx 0xA5#8] }, by decide⟩, by decide, by decide⟩

theorem witness_FetchedRowAgreesWithGeneralRow :
    fetch (.rx 0x5A#8) atReset = some (.actIgnored 0x5A#8) ∧
    fetch .step (captured 0x7E#8) = some (.cmdIgnored 0x7E#8) ∧
    fetch .step (inCC .cDispatch) = some .emptyFrame ∧
    fetch .irqTim atReset = some .irqTim := by decide +kernel

theorem witness_TableWordRunsNext : decodeTableWord 8 0xA5 = some .activate ∧
    decodeTableWord 8 0x03 = some .reboot := by decide

theorem witness_DecodeEncodeAndNoisyFrames : Params.t0.valid = true ∧
    (Instr.cmdIgnored 0x7E#8).wellFormed .t0 = true ∧
    (encode .t0 (.cmdIgnored 0x7E#8)).isSome = true ∧
    [0x5A#8, 0x11#8].foldl (nextFrame .t0) .idle = .idle ∧
    (List.replicate 256 0x02#8).length ≤ 256 := by decide +kernel

theorem witness_WordsAreLittleEndian : 255 < 256 ∧ 4294967295 < 4294967296 ∧ 3 < 4 := by decide

theorem witness_StepKeepsInvariant : pending.Inv ∧ (∃ t, step pending = .next t) :=
  ⟨inv_pending, _, rfl⟩

theorem witness_TerminalStatesFrozenUntilReset :
    (∃ s t : State, ¬ s.live ∧ s.schedule = [.rx 0x01#8] ∧ step s = .next t) ∧
    (∃ s t : State, ¬ s.live ∧ s.schedule = [.reset] ∧ step s = .next t) :=
  ⟨⟨{ inCC .gone with schedule := [.rx 0x01#8] }, _, by decide, rfl, rfl⟩,
    ⟨{ inPM .pCheck with halted := true, schedule := [.reset] }, _, by decide, rfl, rfl⟩⟩

/-- R7, R79: parameters whose code range reaches into the region are not valid. -/
theorem test_params_bootCode : Params.t0.valid = true ∧
    ({ Params.t0 with bootCode := [{ base := 0x3F00#32, size := 0x101 }] } : Params).valid = false ∧
    ({ Params.t0 with bootCode := [{ base := 0x8000#32, size := 0x1 }] } : Params).valid = true := by
  decide

theorem witness_FlashEngineIsSoleMutator : erasing.Inv ∧
    ∃ t, step erasing = .next t ∧ t.flash.read 0x4000 ≠ erasing.flash.read 0x4000 := by
  refine ⟨inv_erasing, eraseAtCursor erasing, rfl, ?_⟩
  rcases flashErasePage_cases erasing.curAddr erasing with h | h | ⟨_, hr, h⟩
  · exact absurd rfl h.1
  · exact absurd h.2.1 (by decide)
  · have he : (eraseAtCursor erasing).flash = erasing.flash.writeBytes erasing.curAddr.toNat
        (List.replicate Config.pageBytes erasing.params.erasedByte) := by
      rw [eraseAtCursor, if_neg (by decide), h, orRaise_ok]
    rw [he, read_erased rfl hr]
    decide

theorem witness_FlashSurvivesResetRebootHalt :
    (∃ t, exec .reset erasing = .next t) ∧ (∃ t, exec .irqTe pending = .next t) ∧
    (∃ t, exec .stepBJump (inCC .bJump) = .next t) :=
  ⟨⟨_, rfl⟩, ⟨_, rfl⟩, ⟨_, rfl⟩⟩

theorem witness_SupervisorNeverRearms :
    (∃ t, runSteps [.reset] receiving = .next t ∧ receiving.sup ≠ .armed ∧ t.sup = .armed) ∧
    (∃ t, runSteps [.step] (inCC .bJump) = .next t ∧ (inCC .bJump).sup ≠ .armed ∧
      t.sup = .armed) :=
  ⟨⟨_, rfl, by decide, by decide⟩, ⟨_, rfl, by decide, by decide⟩⟩

theorem witness_ModeTransitions :
    (atReset.Inv ∧ ∃ t, runSteps [.rx 0xA5#8] atReset = .next t ∧ t.mode ≠ atReset.mode) ∧
    ((inCC .gArm).Inv ∧ ∃ t, runSteps [.step] (inCC .gArm) = .next t ∧
      t.mode ≠ (inCC .gArm).mode) :=
  ⟨⟨inv_atReset, _, rfl, by decide⟩, ⟨inv_gArm, _, rfl, by decide⟩⟩

theorem witness_OneProducerStoresIntoBuffer :
    (erasing.Inv ∧ ∃ t, exec (.rx 0x10#8) erasing = .next t ∧ t.buf ≠ erasing.buf) ∧
    ∃ s : State, s.Inv ∧ ∃ t, exec (.rx 0x10#8) s = .next t ∧ t.buf ≠ s.buf :=
  ⟨⟨inv_erasing, _, rfl, ne_of_apply_ne (fun v => v[128]) (by decide +kernel)⟩,
    _, inv_receiving, _, rfl, ne_of_apply_ne (fun v => v[0]) (by decide +kernel)⟩

theorem witness_CaptureStreamFillsBuffer : ∃ s : State, s.live ∧ s.rxEn = true ∧
    s.rxDma = true ∧ s.dmaEn = true ∧ s.dmaIdx + [0x01#8, 0x02#8].length ≤ 256 :=
  ⟨{ inPM .pCheck with dmaIdx := 254 }, by decide⟩

/-- Four seconds with noise, an idle frame, a transfer error and polls between, and a fifth tick. -/
def noisySeconds : List RunStep :=
  [.step, .rx 0x5A#8] ++ second ++ [.idle, .step] ++ second ++ [.te] ++ second ++
    [.tick, .rx 0x01#8, .irqTim, .step, .tick, .step]

theorem witness_ExactlyTimeoutTicksToHandOff : (∃ s : State, s.params = .t0 ∧
      s.params.valid = true ∧ s.AtReset ∧
      s.flash.word s.params.appBase.toNat = s.params.spSentinel) ∧
    (∃ s : State, s.params = .t0 ∧ s.params.valid = true ∧ s.AtReset ∧
      s.flash.word s.params.appBase.toNat ≠ s.params.spSentinel) ∧
    ticksServed .t0 false noisySeconds = true ∧
    noisySeconds.count .irqTim < Params.t0.timeoutTicks ∧
    ticksServed .t0 false (noisySeconds ++ [.irqTim]) = true ∧
    noisySeconds.count .irqTim + 1 = Params.t0.timeoutTicks :=
  ⟨⟨{ atReset with flash := header }, rfl, by decide, by constructor <;> rfl, by decide⟩,
    ⟨atReset, rfl, by decide, by constructor <;> rfl, by decide⟩, by decide⟩

theorem witness_PageCommitIsIdempotent : erasing.flash.wf = true ∧
    (0x4000#32).toNat % 256 = 0 ∧ erasing.params.appBase.toNat ≤ (0x4000#32).toNat ∧
    (0x4000#32).toNat + 256 ≤ erasing.params.appLimit.toNat := by decide

theorem witness_CommittedHalfReadsBack : erasing.flash.wf = true ∧
    (0x7F00#32).toNat % 256 = 0 ∧ erasing.params.appBase.toNat ≤ (0x7F00#32).toNat ∧
    (0x7F00#32).toNat + 256 ≤ erasing.params.appLimit.toNat := by decide

theorem witness_MergedCompletionIsOverwrite :
    marked .v4 (.rx 0x01#8) { inPM .pCheck with dmaIdx := 127, htif := true } = true := by decide

theorem witness_ScheduledRunIsStepRun : atReset.schedule = [] ∧
    ∃ t, runSteps [.tick, .irqTim, .rx 0xA5#8, .step] atReset = .next t :=
  ⟨rfl, _, rfl⟩

/-- One byte of noise, then a frame with the one payload byte `ENTER_PROG`. -/
def noisyFrame : List LinkSymbol :=
  [.byte 0x11#8, .byte 0x5A#8, .byte 0x5A#8, .byte 0x02#8, .idle, .idle]

theorem witness_ReceiverImplementsFormatC : ∃ s : State, s.seq = .cEnter ∧ s.halted = false ∧
    s.mode = .commandAndControl ∧ s.rxEn = true ∧ s.rxDma = false ∧
    s.schedule = linkRun noisyFrame ++ [.step] ∧
    scanFrame s.params .idle [] 0 noisyFrame = .ok [0x02#8] :=
  ⟨{ inCC .cEnter with schedule := linkRun noisyFrame ++ [.step] }, by decide⟩

/-- A clean session of one half-page, from the step at `G_ARM`. -/
def oneHalf : List RunStep :=
  .step :: (List.replicate 128 (.rx 0x01#8) ++ .irqHt :: (List.replicate 5 .step ++
    [.idle, .irqIdle, .idle, .irqIdle] ++ List.replicate 6 .step))

/-- Vector M7: one half committed, its page counted not. -/
theorem witness_CleanSessionWritesImage : (inCC .gArm).Inv ∧ (inCC .gArm).seq = .gArm ∧
    ((cleanSession oneHalf (inCC .gArm)).map
      (fun tr => (tr.final.seq, tr.stored.length, tr.final.reports))) =
      some (.cEnter, 128, [0]) :=
  ⟨inv_gArm, rfl, by decide +kernel⟩

end Sys2Proof.Tests
end

section
/-! PROOFS. The serial frame receiver (41_serial_frame_receiver.md): the rows of a received byte in
terms of its route, and the start sequence of a command frame. -/

namespace Sys2Proof.Proofs.Receiver

open Sys2Proof Sys2Proof.Machine

/-! ### A received byte by its route (R112) -/

/-- The row RX has the effect of the route the state gives it. -/
theorem exec_rx (b : Byte) (s : State) :
    exec (.rx b) s = .next (rxEffect (rxRoute s) b s) := rfl

/-- A route taken in a state that routes the byte so is enabled. -/
theorem rxVia_eq_next (mn : String) (b : Byte) {r : RxRoute} {s : State} (h : rxRoute s = r) :
    rxVia mn r b s = .next (rxEffect r b s) := by
  rw [rxVia, beq_iff_eq.mpr h, guarded_true]

/-- A byte routed to the search for the first sentinel takes the framing step in both rows. -/
theorem exec_frameIdle (b : Byte) {s : State} (h : rxRoute s = .frameIdle) :
    exec (.rx b) s = .next (rxFraming b s) ∧ exec (.rxFrameIdle b) s = .next (rxFraming b s) :=
  ⟨by rw [exec_rx, h]; rfl, rxVia_eq_next "RX.frame_idle" b h⟩

/-- A byte routed to the search for the second sentinel takes the framing step in both rows. -/
theorem exec_frameStart1 (b : Byte) {s : State} (h : rxRoute s = .frameStart1) :
    exec (.rx b) s = .next (rxFraming b s) ∧ exec (.rxFrameStart1 b) s = .next (rxFraming b s) :=
  ⟨by rw [exec_rx, h]; rfl, rxVia_eq_next "RX.frame_start1" b h⟩

/-! ### The framing step (R116, R117) -/

theorem rxFraming_idle (b : Byte) {s : State} (h : s.frame = .idle) :
    rxFraming b s = { s with
      idleCnt := 0
      frame := if b = s.params.startSentinel then .startDetectedOnce else .idle } := by
  rw [rxFraming, h, nextFrame]

theorem rxFraming_startDetectedOnce (b : Byte) {s : State} (h : s.frame = .startDetectedOnce) :
    rxFraming b s = { s with
      idleCnt := 0
      frame := if b = s.params.startSentinel then .messageActive else .idle } := by
  rw [rxFraming, h, nextFrame]

/-! ### The route while a command frame is awaited (R112) -/

section
variable {s : State} (hlive : s.live) (hen : s.rxEn = true) (hdma : s.rxDma = false)
  (hseq : s.seq = .cRecv) (hdone : s.msgDone = false)
include hlive hen hdma hseq hdone

theorem rxRoute_eq_frameIdle (hframe : s.frame = .idle) : rxRoute s = .frameIdle := by
  have hfrozen : s.frozen = false := (frozen_eq_false s).mpr hlive
  simp [rxRoute, hfrozen, hen, hdma, hseq, hdone, hframe]

theorem rxRoute_eq_frameStart1 (hframe : s.frame = .startDetectedOnce) :
    rxRoute s = .frameStart1 := by
  have hfrozen : s.frozen = false := (frozen_eq_false s).mpr hlive
  simp [rxRoute, hfrozen, hen, hdma, hseq, hdone, hframe]

end

/-- Settles O6: in each of the two framing states the byte's route is fixed, and the framing step
of that route is what R116 and R117 say. -/
theorem startSequenceNeedsTwoSentinels : Obligations.StartSequenceNeedsTwoSentinels := by
  intro b s hlive hen hdma hseq hdone
  constructor
  · rintro hframe f rfl
    rw [← rxFraming_idle b hframe]
    exact exec_frameIdle b (rxRoute_eq_frameIdle hlive hen hdma hseq hdone hframe)
  · rintro hframe f rfl
    rw [← rxFraming_startDetectedOnce b hframe]
    exact exec_frameStart1 b (rxRoute_eq_frameStart1 hlive hen hdma hseq hdone hframe)

end Sys2Proof.Proofs.Receiver
end

section
/-! PROOFS. The timeout supervisor (44_timeout_supervisor.md): what the operations of a step leave in
`SUP`, and that no step arms it again but `RESET` and the reboot (R176). -/

namespace Sys2Proof.Proofs.Supervisor

open Sys2Proof Sys2Proof.Machine Sys2Proof.Proofs.Receiver

/-! ### `SUP` after each operation -/

@[simp] theorem rxActivation_sup (b : Byte) (s : State) :
    (rxActivation b s).sup = if b = s.params.activationByte then (disarm s).sup else s.sup := by
  unfold rxActivation
  split
  · simp only [disarm_sup]
  · rfl

@[simp] theorem rxPolledStore_sup (b : Byte) (s : State) : (rxPolledStore b s).sup = s.sup := by
  unfold rxPolledStore
  split
  · rfl
  · exact raise_sup .rxOverflow s

@[simp] theorem tryJump_sup (base : Addr) (s : State) : (tryJump base s).2.sup = s.sup := by
  obtain ⟨-, h⟩ | ⟨-, h⟩ := tryJump_cases base s <;> simp [h]

@[simp] theorem expire_sup (s : State) : (expire s).sup = .expired := by
  have h := tryJump_sup s.params.appBase { s with sup := .expired, tif := false }
  unfold expire
  split <;> simpa [*] using h

@[simp] theorem timerTick_sup (s : State) :
    (timerTick s).sup = if s.remain - 1 = 0 then .expired else s.sup := by
  unfold timerTick
  split <;> simp [*]

@[simp] theorem runAppJump_sup (s : State) : (runAppJump s).sup = s.sup := by
  have h := tryJump_sup s.params.appBase s
  unfold runAppJump
  split <;> simpa [*] using h

@[simp] theorem pollCapture_sup (s : State) : (pollCapture s).sup = s.sup := by
  unfold pollCapture
  split
  · rfl
  · split <;> rfl

@[simp] theorem eraseAtCursor_sup (s : State) : (eraseAtCursor s).sup = s.sup := by
  unfold eraseAtCursor
  split
  · exact raise_sup .flashContract s
  · obtain ⟨-, h⟩ | ⟨-, -, h⟩ | ⟨-, -, h⟩ := flashErasePage_cases s.curAddr s <;>
      simp [h, orRaise]

@[simp] theorem writeAtCursor_sup (s : State) : (writeAtCursor s).sup = s.sup := by
  unfold writeAtCursor
  split
  · exact raise_sup .flashContract s
  · obtain ⟨-, h⟩ | ⟨-, -, h⟩ | ⟨-, -, h⟩ := flashWriteHalf_cases s.curAddr s.latch s <;>
      simp [h, orRaise]

/-! ### Keeping the supervisor from being armed -/

/-- From `s` to `t` the supervisor does not become armed. -/
def NoRearm (s t : State) : Prop := s.sup ≠ .armed → t.sup ≠ .armed

theorem NoRearm.of_sup_eq {s t : State} (h : t.sup = s.sup) : NoRearm s t := by
  rw [NoRearm, h]
  exact id

theorem NoRearm.of_disarm_sup {s t : State} (h : t.sup = (disarm s).sup) : NoRearm s t := by
  intro hs
  rwa [h, disarm_sup, if_neg hs]

theorem NoRearm.of_guarded {mn : String} {en : Bool} {s t u : State}
    (h : guarded mn en u = .next t) (hu : NoRearm s u) : NoRearm s t := by
  obtain ⟨-, rfl⟩ := guarded_eq_next.mp h
  exact hu

theorem rxEffect_noRearm (r : RxRoute) (b : Byte) (s : State) : NoRearm s (rxEffect r b s) := by
  cases r with
  | activation =>
    by_cases hb : b = s.params.activationByte
    · exact .of_disarm_sup (by rw [rxEffect, rxActivation_sup, if_pos hb])
    · exact .of_sup_eq (by rw [rxEffect, rxActivation_sup, if_neg hb])
  | frameActive => exact .of_sup_eq (rxPolledStore_sup b s)
  | noEffect | off | dmaStore | dmaDrop | frameIdle | frameStart1 | unheard => exact .of_sup_eq rfl

/-- The timer handler only leaves `Armed`, for `Expired` (R173, R174). -/
theorem timerTick_noRearm (s : State) : NoRearm s (timerTick s) := by
  intro hs
  rw [timerTick_sup]
  split
  · decide
  · exact hs

/-! ### What a step of a run fetches and does -/

theorem runSteps_singleton {e : RunStep} {s t : State} :
    runSteps [e] s = .next t ↔ ∃ i, fetch e s = some i ∧ exec i s = .next t := by
  cases hf : fetch e s with
  | none => simp [runSteps, hf]
  | some i => cases hx : exec i s <;> simp [runSteps, hf, hx]

/-- The row of the route a byte takes has the effect of that route (R104, R112). -/
theorem exec_routeInstr (b : Byte) {r : RxRoute} {s : State} (h : rxRoute s = r) :
    exec (routeInstr r b) s = .next (rxEffect r b s) := by
  cases r with
  | noEffect => rw [routeInstr, exec_rx, h]
  | off | dmaStore | dmaDrop | activation | frameIdle | frameStart1 | frameActive | unheard =>
    exact rxVia_eq_next _ b h

/-- Where format A applies, the byte's wire row is the activation compare (R91, R115). -/
theorem exec_decodeActivation (b : Byte) {s : State} (h : formatA s = true) :
    exec (decodeActivation s.params b) s = .next (rxActivation b s) := by
  by_cases hb : b = s.params.activationByte
  · subst hb
    rw [decodeActivation, if_pos rfl]
    exact guarded_eq_next.mpr ⟨h, rfl⟩
  · rw [decodeActivation, if_neg hb]
    exact guarded_eq_next.mpr ⟨by simp [h, hb], rfl⟩

/-- Whichever row a received byte is fetched as, it has the effect of its route (R105, R112). -/
theorem exec_fetchRx (b : Byte) (s : State) :
    exec (fetchRx b s) s = .next (rxEffect (rxRoute s) b s) := by
  unfold fetchRx
  split
  case isTrue hA =>
    have hroute : rxRoute s = .activation := by simp_all [formatA]
    rw [hroute]
    exact exec_decodeActivation b hA
  case isFalse =>
    split
    case isTrue hP =>
      have hroute : rxRoute s = .dmaStore := by simp_all [formatP]
      rw [hroute]
      exact guarded_eq_next.mpr ⟨hP, rfl⟩
    case isFalse => exact exec_routeInstr b rfl

/-- The row a captured frame decodes to is a dispatch, which writes `SEQ` only (R205). -/
theorem exec_decodePayload (p : Params) (payload : List Byte) (s : State) :
    ∃ mn q, exec (decodePayload p payload) s = dispatchAs mn (decodePayload p payload) q s := by
  cases payload with
  | nil => exact ⟨_, _, rfl⟩
  | cons c rest =>
    rw [decodePayload, decodeOpcode]
    split_ifs <;> exact ⟨_, _, rfl⟩

theorem fetchStep_cases {s : State} {i : Instr} (h : fetchStep s = some i) :
    i = s.frameInstr ∨ stepInstr s.seq = some i := by
  unfold fetchStep at h
  split_ifs at h
  · exact .inl (Option.some.inj h).symm
  · exact .inr h

/-! ### No re-arm (R176) -/

theorem exec_frameInstr_noRearm {s t : State} (h : exec s.frameInstr s = .next t) :
    NoRearm s t := by
  obtain ⟨mn, q, hdispatch⟩ := exec_decodePayload s.params s.received s
  exact .of_guarded (hdispatch.symm.trans h) (.of_sup_eq rfl)

/-- No micro-step of the main context arms the supervisor but the one at `B_JUMP`. -/
theorem exec_stepInstr_noRearm {s t : State} {q : Seq} {i : Instr} (hq : q ≠ .bJump)
    (hi : stepInstr q = some i) (h : exec i s = .next t) : NoRearm s t := by
  cases q <;> cases hi
  case bJump => exact absurd rfl hq
  case cRecv => exact .of_guarded h (.of_sup_eq (by split <;> rfl))
  case rTeardown | bTeardown | gArm => exact .of_guarded h (.of_disarm_sup (by simp))
  case rJump => exact .of_guarded h (.of_sup_eq (runAppJump_sup s))
  case pCheck => exact .of_guarded h (.of_sup_eq (pollCapture_sup s))
  case pErase => exact .of_guarded h (.of_sup_eq (eraseAtCursor_sup s))
  case pWrite => exact .of_guarded h (.of_sup_eq (writeAtCursor_sup s))
  all_goals exact .of_guarded h (.of_sup_eq rfl)

/-- Every step of a run but `RESET` and the `STEP` at `B_JUMP` keeps the supervisor from becoming
armed: a byte or a micro-step may disarm it, the timer handler may expire it, and the other events
and handlers do not write it. -/
theorem exec_fetch_noRearm {e : RunStep} {s t : State} {i : Instr} (hreset : e ≠ .reset)
    (hjump : e = .step → s.seq ≠ .bJump) (hf : fetch e s = some i) (hx : exec i s = .next t) :
    NoRearm s t := by
  cases e with
  | reset => exact absurd rfl hreset
  | rx b =>
    cases hf
    cases (exec_fetchRx b s).symm.trans hx
    exact rxEffect_noRearm (rxRoute s) b s
  | idle | tick | te =>
    cases hf
    cases hx
    exact .of_sup_eq (by split <;> simp)
  | irqHt | irqTc | irqTe | irqIdle =>
    cases hf
    exact .of_guarded hx (.of_sup_eq rfl)
  | irqTim =>
    cases hf
    exact .of_guarded hx (timerTick_noRearm s)
  | step =>
    obtain rfl | hrow := fetchStep_cases hf
    · exact exec_frameInstr_noRearm hx
    · exact exec_stepInstr_noRearm (hjump rfl) hrow hx

/-- Settles O50: a step that arms the supervisor is none of those that keep it from being armed. -/
theorem supervisorNeverRearms : Obligations.SupervisorNeverRearms := by
  intro s t e hrun hbefore hafter
  obtain ⟨i, hfetch, hexec⟩ := runSteps_singleton.mp hrun
  by_contra hother
  obtain ⟨hreset, hjump⟩ := not_or.mp hother
  have hjump' : e = .step → s.seq ≠ .bJump := fun hstep hseq => hjump ⟨hstep, hseq⟩
  exact exec_fetch_noRearm hreset hjump' hfetch hexec hbefore hafter

end Sys2Proof.Proofs.Supervisor
end

section
/-! PROOFS. The hand-off (45_handoff.md): the row of `try_jump`, on a match and on a mismatch. -/

namespace Sys2Proof.Proofs.HandOff

open Sys2Proof Sys2Proof.Machine

/-- The row of `try_jump` leaves the operation's state (R185). -/
theorem exec_tryJump (base : Addr) (s : State) :
    exec (.tryJump base) s = .next (tryJump base s).2 := rfl

/-- Settles O34: on a match both words are read inside the address space (R187), on a mismatch only
the first one is read (R188). -/
theorem tryJumpChecksSentinel : Obligations.TryJumpChecksSentinel := by
  intro base s
  constructor
  · intro hwords hmatch
    rw [exec_tryJump, tryJump_present hwords hmatch]
  · intro hword hmismatch
    rw [exec_tryJump, tryJump_absent hword hmismatch]

end Sys2Proof.Proofs.HandOff
end

section
/-! PROOFS. The session controller (46_session_controller.md): the poll of the programmer loop. -/

namespace Sys2Proof.Proofs.Session

open Sys2Proof Sys2Proof.Machine

/-! ### The poll, one equation per case of its pseudocode (R212) -/

theorem pollCapture_complete {s : State} (hdone : s.msgDone = true) :
    pollCapture s = { s with seq := .eStop } := by
  rw [pollCapture, if_pos hdone]

section
variable {s : State} (hopen : s.msgDone = false)
include hopen

theorem pollCapture_firstHalfReady (hready : s.capstat = .firstHalfReady) :
    pollCapture s = { s with latch := .first, seq := .pErase } := by
  simp [pollCapture, hopen, hready]

theorem pollCapture_secondHalfReady (hready : s.capstat = .secondHalfReady) :
    pollCapture s = { s with latch := .second, seq := .pWrite } := by
  simp [pollCapture, hopen, hready]

theorem pollCapture_none (hnone : s.capstat = .none) : pollCapture s = s := by
  simp [pollCapture, hopen, hnone]

end

/-- The row at `P_CHECK`, when it is enabled, makes the poll its next state. -/
theorem exec_stepPCheck {s : State} (hrun : s.halted = false) (hseq : s.seq = .pCheck) :
    exec .stepPCheck s = .next (pollCapture s) :=
  guarded_eq_next.mpr ⟨(stepEnabled_iff .pCheck s).mpr ⟨hseq, hrun⟩, rfl⟩

/-- Settles O23: the row's next state is the poll's, and the poll looks at `CAPSTAT` only while
`MSGDONE = 0`; so the first case needs nothing of `CAPSTAT`. -/
theorem pollTestsCompletionFirst : Obligations.PollTestsCompletionFirst := by
  intro s hrun hseq
  rw [exec_stepPCheck hrun hseq]
  refine ⟨fun hdone => ?complete, fun hopen hready => ?first, fun hopen hready => ?second,
    fun hopen hnone => ?none⟩
  case complete => rw [pollCapture_complete hdone]
  case first => rw [pollCapture_firstHalfReady hopen hready]
  case second => rw [pollCapture_secondHalfReady hopen hready]
  case none => rw [pollCapture_none hopen hnone]

end Sys2Proof.Proofs.Session
end

section
/-! PROOFS. What one step of a run does: for each step mnemonic the condition under which it is
enabled and its whole effect, tied to `fetch` and `exec` once. -/

namespace Sys2Proof.Proofs.Steps

open Sys2Proof Sys2Proof.Machine Sys2Proof.Proofs.Receiver Sys2Proof.Proofs.Supervisor

/-! ### The micro-steps of the main context -/

/-- What the micro-step at a value of `SEQ` makes of a state (46_session_controller.md); nothing at
the two values that have no row (R222). -/
def stepEffect : Seq → State → State
  | .aPoll, s => s
  | .cEnter, s => enterReceive s
  | .cRecv, s => if s.msgDone then { s with seq := .cDispatch } else s
  | .cDispatch, s => { s with seq := dispatchTarget s }
  | .rTeardown, s => { teardownAll s with seq := .rJump }
  | .rJump, s => runAppJump s
  | .gClear, s => { clearBuffer s with seq := .gArm }
  | .gArm, s => armSession s
  | .bTeardown, s => { teardownAll s with seq := .bJump }
  | .bJump, s => Machine.reboot s
  | .pCheck, s => pollCapture s
  | .pErase, s => eraseAtCursor s
  | .pWrite, s => writeAtCursor s
  | .pAdvance, s => advanceCursor s
  | .pClear, s => { s with capstat := .none, seq := .pCheck }
  | .eStop, s => { stopCapture s with idleIe := false, idleIf := false, seq := .eReport }
  | .eReport, s => { s with reports := s.reports ++ [s.curPages], curPages := 0, seq := .eRewind }
  | .eRewind, s => { s with curAddr := s.params.appBase, seq := .eClear }
  | .eClear, s =>
    { clearBuffer s with
      capstat := .none, msgDone := false, idleCnt := 0, dmaIdx := 0, seq := .eFallback }
  | .eFallback, s => { s with mode := .commandAndControl, seq := .cEnter }
  | .gone, s => s
  | .faulted, s => s

/-- Every row of `SEQ` is its effect, guarded by the one enable of the header rule of 46. -/
theorem exec_stepInstr {q : Seq} {i : Instr} (hi : stepInstr q = some i) (s : State) :
    ∃ mn, exec i s = guarded mn (stepEnabled q s) (stepEffect q s) := by
  cases q <;> cases hi <;> exact ⟨_, rfl⟩

theorem exec_stepInstr_eq_next {q : Seq} {i : Instr} (hi : stepInstr q = some i) {s t : State} :
    exec i s = .next t ↔ (s.seq = q ∧ s.halted = false) ∧ stepEffect q s = t := by
  obtain ⟨mn, hrow⟩ := exec_stepInstr hi s
  rw [hrow, guarded_eq_next, stepEnabled_iff]

/-- The row of `SEQ` in a state that has its value and is not halted. -/
theorem exec_stepAt {q : Seq} {i : Instr} (hi : stepInstr q = some i) {s : State}
    (hrun : s.halted = false) (hseq : s.seq = q) : exec i s = .next (stepEffect q s) :=
  (exec_stepInstr_eq_next hi).mpr ⟨⟨hseq, hrun⟩, rfl⟩

/-- Settles O28. -/
theorem stepEnabledExactlyAtItsValue : Obligations.StepEnabledExactlyAtItsValue := by
  refine ⟨rfl, rfl, fun q i s hi => ?_⟩
  simp only [exec_stepInstr_eq_next hi, exists_and_left, exists_eq', and_true]

/-! ### The dispatch of a captured frame (R205) -/

/-- Where the instruction of a frame sends `SEQ`. -/
def commandTarget : Instr → Seq
  | .runApp => .rTeardown
  | .enterProg => .gClear
  | .reboot => .bTeardown
  | _ => .cEnter

theorem decodePayload_cons (p : Params) (c : Byte) (rest : List Byte) :
    decodePayload p (c :: rest) = decodeOpcode p c := rfl

/-- The captured bytes begin with the opcode (R94). -/
theorem received_cases (s : State) :
    (s.rxLen = 0 ∧ s.received = []) ∨
    (s.rxLen ≠ 0 ∧ ∃ rest, s.received = s.opcode :: rest) := by
  rcases Nat.eq_zero_or_pos s.rxLen with h | h
  · exact .inl ⟨h, by simp [State.received, h]⟩
  · refine .inr ⟨by omega, (s.buf.toList.take s.rxLen).tail, ?_⟩
    have hpos : 0 < (s.buf.toList.take s.rxLen).length := by
      simp [h, Config.bufBytes]
    rw [State.received, ← List.cons_head_tail (List.ne_nil_of_length_pos hpos)]
    simp [State.opcode, State.bufByte, List.head_eq_getElem]

theorem frameInstr_empty {s : State} (h : s.rxLen = 0) : s.frameInstr = .emptyFrame := by
  obtain ⟨-, hr⟩ | ⟨hne, -⟩ := received_cases s
  · rw [State.frameInstr, hr]; rfl
  · exact absurd h hne

theorem frameInstr_opcode {s : State} (h : s.rxLen ≠ 0) :
    s.frameInstr = decodeOpcode s.params s.opcode := by
  obtain ⟨h0, -⟩ | ⟨-, rest, hr⟩ := received_cases s
  · exact absurd h0 h
  · rw [State.frameInstr, hr]; rfl

/-- The dispatch of the sequencer and the instruction that the frame decodes to agree. -/
theorem dispatchTarget_eq (s : State) : dispatchTarget s = commandTarget s.frameInstr := by
  by_cases h : s.rxLen = 0
  · rw [dispatchTarget, if_pos h, frameInstr_empty h]; rfl
  · rw [dispatchTarget, if_neg h, frameInstr_opcode h, decodeOpcode]
    split_ifs <;> rfl

/-- The row a captured frame decodes to is the dispatch, guarded by format C and by the frame. -/
theorem exec_decodePayload_eq (p : Params) (payload : List Byte) (s : State) :
    ∃ mn, exec (decodePayload p payload) s =
      dispatchAs mn (decodePayload p payload) (commandTarget (decodePayload p payload)) s := by
  cases payload with
  | nil => exact ⟨_, rfl⟩
  | cons c rest =>
    rw [decodePayload, decodeOpcode]
    split_ifs <;> exact ⟨_, rfl⟩

theorem exec_frameInstr {s : State} (h : formatC s = true) :
    exec s.frameInstr s = .next { s with seq := dispatchTarget s } := by
  obtain ⟨mn, hrow⟩ := exec_decodePayload_eq s.params s.received s
  rw [dispatchTarget_eq, State.frameInstr, hrow]
  exact guarded_eq_next.mpr ⟨by simp [h, State.frameInstr], rfl⟩

theorem formatC_iff (s : State) : formatC s = true ↔
    s.mode = .commandAndControl ∧ s.seq = .cDispatch ∧ s.halted = false := by
  simp [formatC, stepEnabled]

/-! ### Every step of a run -/

/-- What a step of a run makes of a state in which it is enabled. -/
def effect : RunStep → State → State
  | .reset, s => resetBlock s
  | .rx b, s => rxEffect (rxRoute s) b s
  | .idle, s => if idleLatches s then { s with idleIf := true } else s
  | .tick, s => if tickLatches s then { s with tif := true } else s
  | .te, s => if teActs s then { drawBuffer s with teif := true } else s
  | .irqHt, s => { s with htif := false, capstat := .firstHalfReady }
  | .irqTc, s => { s with tcif := false, capstat := .secondHalfReady, dmaIdx := 0, rxEn := true }
  | .irqTe, s => raise .transferFault s
  | .irqIdle, s =>
    { s with
      idleIf := false
      idleCnt := s.idleCnt + 1
      msgDone := msgDoneAfter s.msgDone (s.idleCnt + 1)
      idleIe := idleIeAfter s.idleIe (s.idleCnt + 1) }
  | .irqTim, s => timerTick s
  | .step, s => stepEffect s.seq s

/-- Where a step of a run is enabled (R101, R222, R259). -/
def enabled : RunStep → State → Bool
  | .reset, _ | .rx _, _ | .idle, _ | .tick, _ | .te, _ => true
  | .irqHt, s => irqHtEnabled s
  | .irqTc, s => irqTcEnabled s
  | .irqTe, s => irqTeEnabled s
  | .irqIdle, s => irqIdleEnabled s
  | .irqTim, s => irqTimEnabled s
  | .step, s => !s.frozen

theorem fetchStep_eq_some {s : State} {i : Instr} (h : fetchStep s = some i) :
    s.frozen = false ∧ exec i s = .next (stepEffect s.seq s) := by
  unfold fetchStep at h
  split_ifs at h with hhalt hC
  · obtain ⟨-, hseq, hrun⟩ := (formatC_iff s).mp hC
    cases h
    refine ⟨(frozen_eq_false s).mpr ⟨hrun, by simp [hseq], by simp [hseq]⟩, ?_⟩
    rw [exec_frameInstr hC, hseq]
    rfl
  · have hrun : s.halted = false := by simpa using hhalt
    refine ⟨(frozen_eq_false s).mpr ⟨hrun, ?_, ?_⟩, exec_stepAt h hrun rfl⟩ <;>
    · intro hseq
      rw [hseq] at h
      cases h

/-- Every value of `SEQ` but the two terminal ones has a row (R222). -/
theorem stepInstr_of_live {s : State} (h : s.live) : ∃ i, stepInstr s.seq = some i := by
  obtain ⟨-, hgone, hfaulted⟩ := h
  cases hseq : s.seq with
  | gone => exact absurd hseq hgone
  | faulted => exact absurd hseq hfaulted
  | _ => exact ⟨_, rfl⟩

theorem fetchStep_of_live {s : State} (h : s.live) : ∃ i, fetchStep s = some i := by
  by_cases hC : formatC s = true
  · exact ⟨s.frameInstr, by simp [fetchStep, h.1, hC]⟩
  · obtain ⟨i, hi⟩ := stepInstr_of_live h
    exact ⟨i, by simp [fetchStep, h.1, hC, hi]⟩

/-- One step of a run: the fetch and the row it gives come to the step's enable and effect. -/
theorem runStep_iff {e : RunStep} {s t : State} :
    (∃ i, fetch e s = some i ∧ exec i s = .next t) ↔ enabled e s = true ∧ effect e s = t := by
  cases e with
  | reset | idle | tick | te => exact ⟨by rintro ⟨_, ⟨⟩, ⟨⟩⟩; exact ⟨rfl, rfl⟩,
      by rintro ⟨-, rfl⟩; exact ⟨_, rfl, rfl⟩⟩
  | rx b =>
    constructor
    · rintro ⟨_, ⟨⟩, hx⟩
      exact ⟨rfl, Host.Outcome.next.inj ((exec_fetchRx b s).symm.trans hx)⟩
    · rintro ⟨-, rfl⟩
      exact ⟨_, rfl, exec_fetchRx b s⟩
  | irqHt | irqTc | irqTe | irqIdle | irqTim =>
    constructor
    · rintro ⟨_, ⟨⟩, hx⟩
      exact guarded_eq_next.mp hx
    · exact fun h => ⟨_, rfl, guarded_eq_next.mpr h⟩
  | step =>
    constructor
    · rintro ⟨i, hf, hx⟩
      obtain ⟨hfrozen, hrow⟩ := fetchStep_eq_some hf
      exact ⟨by simp [enabled, hfrozen], Host.Outcome.next.inj (hrow.symm.trans hx)⟩
    · rintro ⟨hen, rfl⟩
      obtain ⟨i, hf⟩ := fetchStep_of_live ((frozen_eq_false s).mp (by simpa [enabled] using hen))
      exact ⟨i, hf, (fetchStep_eq_some hf).2⟩

theorem runSteps_singleton_iff {e : RunStep} {s t : State} :
    runSteps [e] s = .next t ↔ enabled e s = true ∧ effect e s = t :=
  runSteps_singleton.trans runStep_iff

theorem runSteps_cons_iff {e : RunStep} {rest : List RunStep} {s u : State} :
    runSteps (e :: rest) s = .next u ↔
      enabled e s = true ∧ runSteps rest (effect e s) = .next u := by
  constructor
  · intro h
    rw [runSteps] at h
    split at h
    · cases h
    · next i hf =>
      split at h
      · next t hx =>
        obtain ⟨hen, rfl⟩ := runStep_iff.mp ⟨i, hf, hx⟩
        exact ⟨hen, h⟩
      · cases h
      · cases h
  · rintro ⟨hen, h⟩
    obtain ⟨i, hf, hx⟩ := runStep_iff.mpr ⟨hen, rfl⟩
    rw [runSteps, hf]
    simp only [hx, h]

end Sys2Proof.Proofs.Steps
end

section
/-! PROOFS. Received bytes (41_serial_frame_receiver.md R112 to R120, 42_page_capture.md R132 to
R135): the route of a byte in each kind of state, and the whole effect of each route. -/

namespace Sys2Proof.Proofs.Routes

open Sys2Proof Sys2Proof.Machine Sys2Proof.Proofs.Receiver Sys2Proof.Proofs.Supervisor

/-! ### The route a state gives a byte (R112) -/

theorem rxRoute_frozen {s : State} (h : s.frozen = true) : rxRoute s = .noEffect := by
  simp [rxRoute, h]

section
variable {s : State} (hlive : s.live)
include hlive

theorem rxRoute_off (hen : s.rxEn = false) : rxRoute s = .off := by
  simp [rxRoute, (frozen_eq_false s).mpr hlive, hen]

variable (hen : s.rxEn = true)
include hen

theorem rxRoute_dmaStore (hdma : s.rxDma = true) (hch : s.dmaEn = true) (hidx : s.dmaIdx < 256) :
    rxRoute s = .dmaStore := by
  simp [rxRoute, (frozen_eq_false s).mpr hlive, hen, hdma, hch, hidx]

theorem rxRoute_dmaDrop (hdma : s.rxDma = true) (h : s.dmaEn = false ∨ 256 ≤ s.dmaIdx) :
    rxRoute s = .dmaDrop := by
  have hch : ¬ (s.dmaEn = true ∧ s.dmaIdx < 256) := by
    rintro ⟨hch, hidx⟩
    obtain hoff | hfull := h
    · simp [hch] at hoff
    · omega
  simpa [rxRoute, (frozen_eq_false s).mpr hlive, hen, hdma] using hch

variable (hdma : s.rxDma = false)
include hdma

theorem rxRoute_activation (hseq : s.seq = .aPoll) : rxRoute s = .activation := by
  simp [rxRoute, (frozen_eq_false s).mpr hlive, hen, hdma, hseq]

theorem rxRoute_unheard (hpoll : s.seq ≠ .aPoll) (hrecv : s.seq = .cRecv → s.msgDone = true) :
    rxRoute s = .unheard := by
  have hnot : (s.seq == .cRecv && !s.msgDone) = false := by simpa using hrecv
  simp [rxRoute, (frozen_eq_false s).mpr hlive, hen, hdma, hpoll, hnot]

theorem rxRoute_frameActive (hseq : s.seq = .cRecv) (hdone : s.msgDone = false)
    (hframe : s.frame = .messageActive) : rxRoute s = .frameActive := by
  simp [rxRoute, (frozen_eq_false s).mpr hlive, hen, hdma, hseq, hdone, hframe]

end

/-- The row RX and the row of the byte's route have the effect of the route (R104, R112). -/
theorem exec_rx_of_route {r : RxRoute} {s : State} (b : Byte) (h : rxRoute s = r) :
    exec (.rx b) s = .next (rxEffect r b s) ∧
    exec (routeInstr r b) s = .next (rxEffect r b s) :=
  ⟨by rw [exec_rx, h], exec_routeInstr b h⟩

/-! ### Bytes without effect, and lost bytes -/

/-- Settles O3. -/
theorem byteIgnoredWhenOffOrTerminal : Obligations.ByteIgnoredWhenOffOrTerminal := by
  intro b s
  constructor
  · intro hdead
    have hfrozen : s.frozen = true := by
      by_contra h
      exact hdead ((frozen_eq_false s).mp (Bool.eq_false_iff.mpr h))
    exact (exec_rx_of_route b (rxRoute_frozen hfrozen)).1
  · intro hlive hen
    exact exec_rx_of_route b (rxRoute_off hlive hen)

/-- Settles O4. -/
theorem byteUnheardClearsIdleCount : Obligations.ByteUnheardClearsIdleCount := by
  intro b s hlive hen hdma hpoll hrecv
  exact exec_rx_of_route b (rxRoute_unheard hlive hen hdma hpoll hrecv)

/-- Settles O9. -/
theorem dmaDropLosesByte : Obligations.DmaDropLosesByte := by
  intro b s hlive hen hdma hchannel
  exact exec_rx_of_route b (rxRoute_dmaDrop hlive hen hdma hchannel)

/-! ### The activation compare (R115) -/

theorem disarm_eq (s : State) : disarm s = { s with
    sup := if s.sup = .armed then .disarmed else s.sup
    tif := if s.sup = .armed then false else s.tif } := by
  unfold disarm
  split <;> rfl

theorem rxActivation_match {b : Byte} {s : State} (h : b = s.params.activationByte) :
    rxActivation b s = { s with
      idleCnt := 0
      sup := if s.sup = .armed then .disarmed else s.sup
      tif := if s.sup = .armed then false else s.tif
      mode := .commandAndControl
      seq := .cEnter } := by
  rw [rxActivation, if_pos h, disarm_eq]

theorem rxActivation_other {b : Byte} {s : State} (h : b ≠ s.params.activationByte) :
    rxActivation b s = { s with idleCnt := 0 } := by
  rw [rxActivation, if_neg h]

/-- Settles O5: both rows of the event and the wire row of format A are the activation compare. -/
theorem activationByteDisarmsAndEnters : Obligations.ActivationByteDisarmsAndEnters := by
  intro b s hlive hen hdma hseq
  have hroute := rxRoute_activation hlive hen hdma hseq
  have hwire : s.mode = .awaitingActivation →
      exec (decodeActivation s.params b) s = .next (rxActivation b s) :=
    fun hmode => exec_decodeActivation b (by simp [formatA, hmode, hroute])
  obtain ⟨hrx, hrow⟩ := exec_rx_of_route b hroute
  refine ⟨fun hmatch => ?_, fun hother => ?_⟩
  · rw [decodeActivation, if_pos hmatch] at hwire
    exact rxActivation_match hmatch ▸ ⟨hrx, hrow, hwire⟩
  · rw [decodeActivation, if_neg hother] at hwire
    exact rxActivation_other hother ▸ ⟨hrx, hrow, hwire⟩

/-! ### The two stores (R118, R119, R132 to R134) -/

theorem rxPolledStore_fits {b : Byte} {s : State} (h : s.rxLen < 256) :
    rxPolledStore b s = { s.setBufByte s.rxLen b with idleCnt := 0, rxLen := s.rxLen + 1 } := by
  rw [rxPolledStore, if_pos h]

theorem rxPolledStore_overflow {b : Byte} {s : State} (h : 256 ≤ s.rxLen) :
    rxPolledStore b s = { s with fault := some .rxOverflow, seq := .faulted } := by
  rw [rxPolledStore, if_neg (Nat.not_lt.mpr h), raise_rxOverflow]

/-- A state reads as the buffer it was given. -/
theorem bufByte_congr {s t : State} (h : s.buf = t.buf) (k : Nat) : s.bufByte k = t.bufByte k := by
  rw [State.bufByte, State.bufByte, h]

/-- Settles O7. -/
theorem payloadByteAppendedOrOverflows : Obligations.PayloadByteAppendedOrOverflows := by
  intro b s hlive hen hdma hseq hdone hframe
  obtain ⟨hrx, hrow⟩ := exec_rx_of_route b (rxRoute_frameActive hlive hen hdma hseq hdone hframe)
  refine ⟨fun hfits => ⟨_, hrx, hrow, ?_⟩, fun hfull => ?_⟩
  · rw [rxEffect, rxPolledStore_fits hfits]
    have hread := bufByte_setBufByte s s.rxLen (b := b) (hk := hfits)
    exact ⟨rfl, (hread s.rxLen).trans (if_pos rfl), fun k hk => (hread k).trans (if_neg hk)⟩
  · exact rxPolledStore_overflow (b := b) hfull ▸ ⟨hrx, hrow⟩

theorem htifAfter_eq (old : Bool) (idx : Nat) :
    htifAfter old idx = if idx = 128 then true else old := by
  by_cases h : idx = 128 <;> simp [htifAfter, h]

theorem tcifAfter_eq (old : Bool) (idx : Nat) :
    tcifAfter old idx = if idx = 256 then true else old := by
  by_cases h : idx = 256 <;> simp [tcifAfter, h]

/-- The DMA store, its flags as the rules state them. -/
theorem rxDmaStore_eq (b : Byte) (s : State) :
    rxDmaStore b s = { s.setBufByte s.dmaIdx b with
      idleCnt := 0
      dmaIdx := s.dmaIdx + 1
      htif := if s.dmaIdx + 1 = 128 then true else s.htif
      tcif := if s.dmaIdx + 1 = 256 then true else s.tcif } := by
  rw [rxDmaStore, htifAfter_eq, tcifAfter_eq]

theorem bufByte_rxDmaStore (b : Byte) {s : State} (h : s.dmaIdx < 256) (k : Nat) :
    (rxDmaStore b s).bufByte k = if k = s.dmaIdx then b else s.bufByte k :=
  bufByte_setBufByte s s.dmaIdx k b h

/-- Settles O8: the row of format P is the store too. -/
theorem dmaStoreRaisesTransferFlags : Obligations.DmaStoreRaisesTransferFlags := by
  intro b s hlive hen hdma hchannel hidx
  have hroute := rxRoute_dmaStore hlive hen hdma hchannel hidx
  obtain ⟨hrx, hrow⟩ := exec_rx_of_route b hroute
  have hwire : s.mode = .programmerMode → exec (.imageByte b) s = .next (rxDmaStore b s) :=
    fun hmode => guarded_eq_next.mpr ⟨by simp [formatP, hmode, hroute], rfl⟩
  have hread := bufByte_rxDmaStore b hidx
  refine ⟨_, hrx, hrow, hwire, ?_, (hread _).trans (if_pos rfl),
    fun k hk => (hread k).trans (if_neg hk)⟩
  rw [rxEffect, rxDmaStore_eq]
  rfl

end Sys2Proof.Proofs.Routes
end

section
/-! PROOFS. The hand-off and the reset operations (45_handoff.md, 70_reset_and_hazards.md section
1), and the operations of the supervisor (44_timeout_supervisor.md sections 3 and 4). -/

namespace Sys2Proof.Proofs.HandOff

open Sys2Proof Sys2Proof.Machine Sys2Proof.Proofs.Steps Sys2Proof.Proofs.Routes

/-! ### What valid parameters place inside the address space -/

theorem appBase_page_le {p : Params} (h : p.valid = true) :
    p.appBase.toNat + 256 ≤ p.appLimit.toNat := by
  obtain ⟨-, -, -, hbase, hlimit, hlt, -⟩ := (Params.valid_iff p).mp h
  simp only [Config.pageBytes] at hbase hlimit
  omega

theorem appBase_space {p : Params} (h : p.valid = true) :
    p.appBase.toNat + 8 ≤ Config.flashSpace := by
  have hpage := appBase_page_le h
  have hlimit := p.appLimit.isLt
  simp only [Config.flashSpace]
  omega

theorem bootBase_space {p : Params} (h : p.valid = true) :
    p.bootBase.toNat + 8 ≤ Config.flashSpace := by
  obtain ⟨-, -, -, -, -, -, -, hboot, -⟩ := (Params.valid_iff p).mp h
  exact hboot

/-! ### The words read past the address space (log entry 10) -/

/-- A byte of a word read is the byte at its address (R61). -/
theorem extract_memRead4 (s : State) (a : Nat) {k : Nat} (hk : k < 4) :
    BitVec.extractLsb' (8 * k) 8 (memRead4 s a) = memRead1 s (a + k) := by
  obtain ⟨h0, h1, h2, h3⟩ := extract_littleEndian (memRead1 s a) (memRead1 s (a + 1))
    (memRead1 s (a + 2)) (memRead1 s (a + 3))
  match k, hk with
  | 0, _ => exact h0
  | 1, _ => exact h1
  | 2, _ => exact h2
  | 3, _ => exact h3

/-- A byte inside the address space of a word read is the byte of flash. -/
theorem extract_memRead4_inside (s : State) (a : Nat) {k : Nat} (hk : k < 4)
    (hin : a + k < 4294967296) :
    BitVec.extractLsb' (8 * k) 8 (memRead4 s a) = s.flash.read (a + k) := by
  rw [extract_memRead4 s a hk, memRead1_inside hin]

theorem afterRead_draws_only (a : Nat) (s : State) : ∃ d, afterRead a s = { s with draws := d } :=
  ⟨_, afterRead_eq a s⟩

/-- Two reads, like one, change at most the count of draws. -/
theorem afterRead_twice_draws_only (a b : Nat) (s : State) :
    ∃ d, afterRead b (afterRead a s) = { s with draws := d } := by
  obtain ⟨d, hfirst⟩ := afterRead_draws_only a s
  obtain ⟨d', hsecond⟩ := afterRead_draws_only b { s with draws := d }
  exact ⟨d', by rw [hfirst, hsecond]⟩

/-- Settles O35: the two words are those that `tryJump` reads, the second after the draw of the
first. -/
theorem tryJumpPastSpaceReadsFreeValues : Obligations.TryJumpPastSpaceReadsFreeValues := by
  intro base s
  refine ⟨memRead4 s base.toNat, memRead4 (afterRead base.toNat s) (base.toNat + 4), _,
    exec_tryJump base s, fun k hk hin => extract_memRead4_inside s _ hk hin,
    fun k hk hin => ?_, fun hmatch => ?_, fun hmismatch => ?_⟩
  · rw [extract_memRead4_inside _ _ hk hin, afterRead_flash]
  · obtain ⟨hne, -⟩ | ⟨-, hjump⟩ := tryJump_cases base s
    · exact absurd hmatch hne
    · obtain ⟨d, hread⟩ := afterRead_twice_draws_only base.toNat (base.toNat + 4) s
      rw [hjump, hread, hmatch]
  · obtain ⟨-, hjump⟩ | ⟨heq, -⟩ := tryJump_cases base s
    · obtain ⟨d, hread⟩ := afterRead_draws_only base.toNat s
      rw [hjump, hread]
    · exact absurd heq hmismatch

/-- Byte `r` of word `q` of the buffer is its field of the word (R60). -/
theorem extract_bufWord (s : State) (q : Nat) {r : Nat} (hr : r < 4) :
    s.bufByte (4 * q + r) = BitVec.extractLsb' (8 * r) 8 (s.bufWord q) := by
  obtain ⟨h0, h1, h2, h3⟩ := extract_littleEndian (s.bufByte (4 * q)) (s.bufByte (4 * q + 1))
    (s.bufByte (4 * q + 2)) (s.bufByte (4 * q + 3))
  match r, hr with
  | 0, _ => exact h0.symm
  | 1, _ => exact h1.symm
  | 2, _ => exact h2.symm
  | 3, _ => exact h3.symm

/-- Settles O44. -/
theorem wordsAreLittleEndian : Obligations.WordsAreLittleEndian := by
  intro s
  refine ⟨fun k _ => ?_, extract_bufWord s 0 (r := 0) (by decide), fun a ha => memRead1_inside ha,
    fun a k hk => (extract_memRead4 s a hk).symm⟩
  conv_lhs => rw [← Nat.div_add_mod k 4]
  exact extract_bufWord s (k / 4) (Nat.mod_lt k (by decide))

/-! ### The callers of `try_jump` (R174, R207) -/

section
variable {s : State} (hvalid : s.params.valid = true)
include hvalid

section
variable (hword : s.flash.word s.params.appBase.toNat = s.params.spSentinel)
include hword

theorem expire_present : expire s = { s with
    sup := .expired, tif := false, seq := .gone
    coreSp := s.params.spSentinel
    corePc := s.flash.word (s.params.appBase.toNat + 4)
    handoff := some
      { base := s.params.appBase, sp := s.params.spSentinel,
        entry := s.flash.word (s.params.appBase.toNat + 4) } } := by
  rw [expire, tryJump_present (s := { s with sup := .expired, tif := false })
    (appBase_space hvalid) hword]

theorem runAppJump_present : runAppJump s = { s with
    seq := .gone
    coreSp := s.params.spSentinel
    corePc := s.flash.word (s.params.appBase.toNat + 4)
    handoff := some
      { base := s.params.appBase, sp := s.params.spSentinel,
        entry := s.flash.word (s.params.appBase.toNat + 4) } } := by
  rw [runAppJump, tryJump_present (appBase_space hvalid) hword]

end

section
variable (hword : s.flash.word s.params.appBase.toNat ≠ s.params.spSentinel)
include hword

theorem expire_absent : expire s = { s with
    sup := .expired, tif := false, notFounds := s.notFounds ++ [s.params.appBase] } := by
  rw [expire, tryJump_absent (s := { s with sup := .expired, tif := false })
    (le_trans (by omega) (appBase_space hvalid)) hword]

theorem runAppJump_absent : runAppJump s = { s with
    seq := .cEnter
    rxEn := if s.params.reenableAfterAbsent then true else s.rxEn
    notFounds := s.notFounds ++ [s.params.appBase] } := by
  rw [runAppJump, tryJump_absent (le_trans (by omega) (appBase_space hvalid)) hword]

end
end

/-- Settles O36. -/
theorem expireDeinitialisesThenJumps : Obligations.ExpireDeinitialisesThenJumps := by
  intro s hvalid
  exact ⟨fun hword => congrArg _ (expire_present hvalid hword),
    fun hword => congrArg _ (expire_absent hvalid hword)⟩

/-! ### Disarming and teardown (R175, R190) -/

theorem teardownAll_eq (s : State) : teardownAll s = { s with
    dmaEn := false, htif := false, tcif := false, teif := false, rxDma := false
    idleIe := false, idleIf := false, rxEn := false
    sup := if s.sup = .armed then .disarmed else s.sup
    tif := if s.sup = .armed then false else s.tif } := by
  rw [teardownAll, disarm_eq]

theorem exec_disarm (s : State) : exec .disarm s = .next (disarm s) := rfl

theorem exec_teardownAll (s : State) : exec .teardownAll s = .next (teardownAll s) := rfl

/-- Settles O30. -/
theorem disarmAndTeardown : Obligations.DisarmAndTeardown := by
  intro s
  refine ⟨fun harmed => ?_, fun hnot => ?_, ?_⟩
  · rw [exec_disarm, disarm, if_pos harmed]
  · rw [exec_disarm, disarm, if_neg hnot]
  · rw [exec_teardownAll, teardownAll_eq]

/-! ### The reset state (R46, R280, R283) -/

theorem resetBlock_atReset (s : State) : (resetBlock s).AtReset := by
  constructor <;> rfl

theorem exec_reset (s : State) : exec .reset s = .next (resetBlock s) := rfl

theorem exec_warmReset (s : State) : exec .warmReset s = .next (resetBlock s) := rfl

/-- Settles O1. -/
theorem resetLeavesStatedValues : Obligations.ResetLeavesStatedValues := by
  refine ⟨?_, rfl, rfl, rfl, fun s => ?_⟩
  · constructor <;> rfl
  · exact ⟨_, exec_reset s, resetBlock_atReset s, rfl, rfl, rfl, rfl⟩

/-- Settles O2: both rows are the one operation `resetBlock`. -/
theorem warmResetEqualsReset : Obligations.WarmResetEqualsReset := by
  intro s
  exact ⟨_, _, exec_reset s, exec_warmReset s, rfl, resetBlock_atReset s, rfl, rfl, rfl, rfl, rfl,
    rfl, rfl, rfl⟩

/-! ### The reboot (R191, R192, R211) -/

theorem reboot_eq_resetBlock (s : State) : ∃ u, Machine.reboot s = resetBlock u ∧
    u = { s with
      coreSp := u.coreSp, corePc := u.corePc, reboots := u.reboots, draws := u.draws } := by
  obtain ⟨d, hread⟩ :=
    afterRead_twice_draws_only s.params.bootBase.toNat (s.params.bootBase.toNat + 4) s
  refine ⟨_, rfl, ?_⟩
  rw [hread]

/-- What the vector lookup and the warm reset of `reboot()` leave (R191), as O22 and O37 say it. -/
structure Rebooted (s t : State) : Prop where
  atReset : t.AtReset
  params : t.params = s.params
  flash : t.flash = s.flash
  coreSp : t.coreSp = s.flash.word s.params.bootBase.toNat
  corePc : t.corePc = s.flash.word (s.params.bootBase.toNat + 4)
  reports : t.reports = s.reports
  notFounds : t.notFounds = s.notFounds
  schedule : t.schedule = s.schedule
  reboots : t.reboots = s.reboots ++
    [{ base := s.params.bootBase, sp := s.flash.word s.params.bootBase.toNat,
       entry := s.flash.word (s.params.bootBase.toNat + 4) }]

theorem reboot_rebooted {s : State} (hvalid : s.params.valid = true) :
    Rebooted s (Machine.reboot s) := by
  rw [reboot_inside (bootBase_space hvalid)]
  exact ⟨resetBlock_atReset _, rfl, rfl, rfl, rfl, rfl, rfl, rfl, rfl⟩

theorem exec_rebootOp (s : State) : exec .rebootOp s = .next (Machine.reboot s) := rfl

theorem exec_selfReset (s : State) : exec .selfReset s = .next (Machine.reboot s) := rfl

/-- Settles O37: both rows are the one operation `reboot`. -/
theorem rebootAndSelfResetOperations : Obligations.RebootAndSelfResetOperations := by
  intro s hvalid
  have h := reboot_rebooted hvalid
  exact ⟨_, _, exec_rebootOp s, exec_selfReset s, rfl, h.atReset, h.params, h.flash, h.coreSp,
    h.corePc, h.reports, h.notFounds, h.schedule, h.reboots⟩

/-- Settles O22. -/
theorem rebootCommandEndsInReset : Obligations.RebootCommandEndsInReset := by
  intro s hrun
  refine ⟨fun hseq => ?_, fun hseq hvalid => ?_⟩
  · rw [exec_stepAt (q := .bTeardown) rfl hrun hseq, stepEffect, teardownAll_eq]
  · have h := reboot_rebooted hvalid
    exact ⟨_, exec_stepAt (q := .bJump) rfl hrun hseq, h.atReset, h.params, h.flash, h.coreSp,
      h.corePc, h.reports, h.notFounds, h.schedule, h.reboots⟩

/-- Settles O20. -/
theorem runAppTearsDownThenJumps : Obligations.RunAppTearsDownThenJumps := by
  intro s hrun
  refine ⟨fun hseq => ?_, fun hseq hvalid hword => ?_, fun hseq hvalid hword => ?_⟩
  · rw [exec_stepAt (q := .rTeardown) rfl hrun hseq, stepEffect, teardownAll_eq]
  · rw [exec_stepAt (q := .rJump) rfl hrun hseq, stepEffect, runAppJump_present hvalid hword]
  · rw [exec_stepAt (q := .rJump) rfl hrun hseq, stepEffect, runAppJump_absent hvalid hword]

end Sys2Proof.Proofs.HandOff
end

section
/-! PROOFS. The events of the environment and the interrupt handlers (60_exceptions.md section 2).
-/

namespace Sys2Proof.Proofs.Handlers

open Sys2Proof Sys2Proof.Machine Sys2Proof.Proofs.Steps Sys2Proof.Proofs.HandOff

/-! ### What latches and what is enabled, as propositions (R121, R138, R172, R257 to R259) -/

theorem idleLatches_iff (s : State) :
    idleLatches s = true ↔ s.live ∧ s.rxEn = true ∧ s.idleIe = true := by
  simp [idleLatches, frozen_eq_false, and_assoc]

theorem tickLatches_iff (s : State) : tickLatches s = true ↔ s.live ∧ s.sup = .armed := by
  simp [tickLatches, frozen_eq_false]

theorem teActs_iff (s : State) : teActs s = true ↔ s.live ∧ s.dmaEn = true := by
  simp [teActs, frozen_eq_false, and_comm]

theorem irqHtEnabled_iff (s : State) :
    irqHtEnabled s = true ↔ s.htif = true ∧ s.dmaEn = true ∧ s.live := by
  simp [irqHtEnabled, frozen_eq_false, and_assoc]

theorem irqTcEnabled_iff (s : State) :
    irqTcEnabled s = true ↔ s.tcif = true ∧ s.dmaEn = true ∧ s.live := by
  simp [irqTcEnabled, frozen_eq_false, and_assoc]

theorem irqTeEnabled_iff (s : State) :
    irqTeEnabled s = true ↔ s.teif = true ∧ s.dmaEn = true ∧ s.live := by
  simp [irqTeEnabled, frozen_eq_false, and_assoc]

theorem irqIdleEnabled_iff (s : State) :
    irqIdleEnabled s = true ↔ s.idleIf = true ∧ s.idleIe = true ∧ s.live := by
  simp [irqIdleEnabled, frozen_eq_false, and_assoc]

theorem irqTimEnabled_iff (s : State) :
    irqTimEnabled s = true ↔ s.tif = true ∧ s.sup = .armed ∧ s.live := by
  simp [irqTimEnabled, frozen_eq_false, and_assoc]

/-! ### The events -/

theorem effect_idle_on {s : State} (h : s.live ∧ s.rxEn = true ∧ s.idleIe = true) :
    effect .idle s = { s with idleIf := true } := if_pos ((idleLatches_iff s).mpr h)

theorem effect_idle_off {s : State} (h : ¬ (s.live ∧ s.rxEn = true ∧ s.idleIe = true)) :
    effect .idle s = s := if_neg fun hl => h ((idleLatches_iff s).mp hl)

theorem effect_tick_on {s : State} (h : s.live ∧ s.sup = .armed) :
    effect .tick s = { s with tif := true } := if_pos ((tickLatches_iff s).mpr h)

theorem effect_tick_off {s : State} (h : ¬ (s.live ∧ s.sup = .armed)) : effect .tick s = s :=
  if_neg fun hl => h ((tickLatches_iff s).mp hl)

theorem effect_te_on {s : State} (h : s.live ∧ s.dmaEn = true) :
    effect .te s = { drawBuffer s with teif := true } := if_pos ((teActs_iff s).mpr h)

theorem effect_te_off {s : State} (h : ¬ (s.live ∧ s.dmaEn = true)) : effect .te s = s :=
  if_neg fun hl => h ((teActs_iff s).mp hl)

theorem exec_idle (s : State) : exec .idle s = .next (effect .idle s) := rfl

theorem exec_tick (s : State) : exec .tick s = .next (effect .tick s) := rfl

theorem exec_te (s : State) : exec .te s = .next (effect .te s) := rfl

/-- Settles O10. -/
theorem idleAndTickLatchWhenEnabled : Obligations.IdleAndTickLatchWhenEnabled := by
  intro s
  refine ⟨fun hlive hen hie => ?_, fun hoff => ?_, fun hlive harmed => ?_, fun hoff => ?_⟩
  · rw [exec_idle, effect_idle_on ⟨hlive, hen, hie⟩]
  · rw [exec_idle, effect_idle_off hoff]
  · rw [exec_tick, effect_tick_on ⟨hlive, harmed⟩]
  · rw [exec_tick, effect_tick_off hoff]

/-- Settles O11: the draw of the buffer's free bytes touches `BUF` and the count of draws only. -/
theorem transferErrorEventSetsPending : Obligations.TransferErrorEventSetsPending := by
  intro s
  refine ⟨fun hlive hch => ⟨_, exec_te s, ?_⟩, fun hoff => ?_⟩
  · rw [effect_te_on ⟨hlive, hch⟩, drawBuffer]
  · rw [exec_te, effect_te_off hoff]

/-! ### The handlers -/

theorem exec_irqHt_eq_next {s t : State} : exec .irqHt s = .next t ↔
    irqHtEnabled s = true ∧ effect .irqHt s = t := guarded_eq_next

theorem exec_irqTc_eq_next {s t : State} : exec .irqTc s = .next t ↔
    irqTcEnabled s = true ∧ effect .irqTc s = t := guarded_eq_next

theorem exec_irqTe_eq_next {s t : State} : exec .irqTe s = .next t ↔
    irqTeEnabled s = true ∧ effect .irqTe s = t := guarded_eq_next

theorem exec_irqIdle_eq_next {s t : State} : exec .irqIdle s = .next t ↔
    irqIdleEnabled s = true ∧ effect .irqIdle s = t := guarded_eq_next

theorem exec_irqTim_eq_next {s t : State} : exec .irqTim s = .next t ↔
    irqTimEnabled s = true ∧ effect .irqTim s = t := guarded_eq_next

/-- Settles O12. -/
theorem transferHandlersSetReady : Obligations.TransferHandlersSetReady := by
  intro s hlive hch
  exact ⟨fun hflag => exec_irqHt_eq_next.mpr ⟨(irqHtEnabled_iff s).mpr ⟨hflag, hch, hlive⟩, rfl⟩,
    fun hflag => exec_irqTc_eq_next.mpr ⟨(irqTcEnabled_iff s).mpr ⟨hflag, hch, hlive⟩, rfl⟩⟩

/-- Settles O13. -/
theorem transferErrorHandlerHalts : Obligations.TransferErrorHandlerHalts := by
  intro s hlive hch hflag
  exact exec_irqTe_eq_next.mpr ⟨(irqTeEnabled_iff s).mpr ⟨hflag, hch, hlive⟩, rfl⟩

theorem effect_irqIdle_counts {s : State} (h : s.idleCnt + 1 ≠ 2) :
    effect .irqIdle s = { s with idleIf := false, idleCnt := s.idleCnt + 1 } := by
  simp [effect, msgDoneAfter, idleIeAfter, h]

theorem effect_irqIdle_completes {s : State} (h : s.idleCnt + 1 = 2) :
    effect .irqIdle s =
      { s with idleIf := false, idleCnt := 2, msgDone := true, idleIe := false } := by
  simp [effect, msgDoneAfter, idleIeAfter, h]

/-- Settles O14. -/
theorem idleHandlerCompletesAtTwo : Obligations.IdleHandlerCompletesAtTwo := by
  intro s hlive hflag hie
  have hen := (irqIdleEnabled_iff s).mpr ⟨hflag, hie, hlive⟩
  exact ⟨fun h => exec_irqIdle_eq_next.mpr ⟨hen, effect_irqIdle_counts h⟩,
    fun h => exec_irqIdle_eq_next.mpr ⟨hen, effect_irqIdle_completes h⟩⟩

theorem timerTick_counts {s : State} (h : 2 ≤ s.remain) :
    timerTick s = { s with tif := false, remain := s.remain - 1 } := by
  rw [timerTick, if_neg (show s.remain - 1 ≠ 0 by omega)]

theorem timerTick_expires {s : State} (h : s.remain ≤ 1) :
    timerTick s = expire { s with tif := false, remain := 0 } := by
  have hzero : s.remain - 1 = 0 := by omega
  simp only [timerTick, hzero, if_true]

/-- Settles O15. -/
theorem timerHandlerCountsDownAndExpires : Obligations.TimerHandlerCountsDownAndExpires := by
  intro s hlive hflag harmed
  have hen := (irqTimEnabled_iff s).mpr ⟨hflag, harmed, hlive⟩
  refine ⟨fun h => exec_irqTim_eq_next.mpr ⟨hen, timerTick_counts h⟩,
    fun h hvalid hword => exec_irqTim_eq_next.mpr ⟨hen, ?_⟩,
    fun h hvalid hword => exec_irqTim_eq_next.mpr ⟨hen, ?_⟩⟩ <;> rw [effect, timerTick_expires h.le]
  · exact expire_present (s := { s with tif := false, remain := 0 }) hvalid hword
  · exact expire_absent (s := { s with tif := false, remain := 0 }) hvalid hword

/-- Settles O16: the guard of each handler row is its enable; the invariant gives the `RX_EN` that
R257 adds to the idle line's (log entry 13). -/
theorem handlerEnabledExactlyWhenPending : Obligations.HandlerEnabledExactlyWhenPending := by
  intro s hinv
  simp only [exec_irqHt_eq_next, exec_irqTc_eq_next, exec_irqTe_eq_next, exec_irqIdle_eq_next,
    exec_irqTim_eq_next, exists_and_left, exists_eq', and_true]
  refine ⟨irqHtEnabled_iff s, irqTcEnabled_iff s, irqTeEnabled_iff s, ?_, irqTimEnabled_iff s⟩
  rw [irqIdleEnabled_iff]
  constructor
  · rintro ⟨hflag, -, hlive⟩
    exact ⟨hflag, hinv.control.idle_flag hflag, hlive⟩
  · rintro ⟨hflag, ⟨hie, -⟩, hlive⟩
    exact ⟨hflag, hie, hlive⟩

/-! ### What a handler leaves of the main context (R261 to R263) -/

/-- The elements of the main context, the buffer and flash, but for `SEQ` and the hand-off record.
-/
structure SameContext (s t : State) : Prop where
  latch : t.latch = s.latch
  mode : t.mode = s.mode
  curAddr : t.curAddr = s.curAddr
  curPages : t.curPages = s.curPages
  frame : t.frame = s.frame
  rxLen : t.rxLen = s.rxLen
  buf : t.buf = s.buf
  flash : t.flash = s.flash

/-- A hand-off attempt touches the main context by the record alone. -/
theorem tryJump_context (base : Addr) (s : State) :
    SameContext s (tryJump base s).2 ∧ (tryJump base s).2.seq = s.seq ∧
    ((tryJump base s).1 = .jumped → (tryJump base s).2.handoff ≠ none) := by
  obtain ⟨-, h⟩ | ⟨-, h⟩ := tryJump_cases base s
  · rw [h]
    exact ⟨by constructor <;> simp, by simp, by simp⟩
  · rw [h]
    exact ⟨by constructor <;> simp, by simp, by simp⟩

theorem expire_context (s : State) : SameContext s (expire s) ∧
    ((expire s).seq = s.seq ∨ ((expire s).seq = .gone ∧ (expire s).handoff ≠ none)) := by
  obtain ⟨hctx, hseq, hjumped⟩ :=
    tryJump_context s.params.appBase { s with sup := .expired, tif := false }
  unfold expire
  split
  · next t ht =>
    simp only [ht, forall_const] at hctx hseq hjumped
    exact ⟨{ hctx with }, .inr ⟨rfl, hjumped⟩⟩
  · next t ht =>
    simp only [ht] at hctx hseq
    exact ⟨{ hctx with }, .inl hseq⟩

theorem timerTick_context (s : State) : SameContext s (timerTick s) ∧
    ((timerTick s).seq = s.seq ∨
      ((timerTick s).seq = .gone ∧ (timerTick s).handoff ≠ none)) := by
  rw [timerTick]
  split
  · obtain ⟨hctx, hseq⟩ := expire_context { s with tif := false, remain := s.remain - 1 }
    exact ⟨{ hctx with }, hseq⟩
  · exact ⟨by constructor <;> rfl, .inl rfl⟩

/-- The four other handlers write flags, counters and `HALTED` only. -/
theorem effect_handler_context {e : RunStep} (he : e ∈ [.irqHt, .irqTc, .irqTe, .irqIdle])
    (s : State) : SameContext s (effect e s) ∧ (effect e s).seq = s.seq := by
  simp only [List.mem_cons, List.not_mem_nil, or_false] at he
  obtain rfl | rfl | rfl | rfl := he <;> exact ⟨by constructor <;> rfl, rfl⟩

/-- Settles O17. -/
theorem handlersLeaveMainContext : Obligations.HandlersLeaveMainContext := by
  intro s t e he hrun
  obtain ⟨-, rfl⟩ := runSteps_singleton_iff.mp hrun
  have hsplit : e ∈ [.irqHt, .irqTc, .irqTe, .irqIdle] ∨ e = .irqTim := by
    simpa [or_assoc] using he
  obtain hother | rfl := hsplit
  · obtain ⟨h, hseq⟩ := effect_handler_context hother s
    exact ⟨h.latch, h.mode, h.curAddr, h.curPages, h.frame, h.rxLen, h.buf, h.flash, .inl hseq⟩
  · obtain ⟨h, hseq⟩ := timerTick_context s
    exact ⟨h.latch, h.mode, h.curAddr, h.curPages, h.frame, h.rxLen, h.buf, h.flash,
      hseq.imp_right fun hgone => ⟨rfl, hgone⟩⟩

/-! ### The marks of R286 -/

theorem marked_v4_iff (e : RunStep) (s : State) : marked .v4 e s = true ↔
    ∃ b, e = .rx b ∧ rxRoute s = .dmaStore ∧ s.dmaIdx + 1 = 128 ∧ s.htif = true := by
  cases e <;> simp [marked, Config.halfBytes, and_assoc]

/-- Settles O57: the store that merges two completions writes into the first half while its flag is
pending. -/
theorem mergedCompletionIsOverwrite : Obligations.MergedCompletionIsOverwrite := by
  intro e s hmerged
  obtain ⟨b, rfl, hroute, hidx, hflag⟩ := (marked_v4_iff e s).mp hmerged
  have hlow : s.dmaIdx < 128 := by omega
  simp [marked, hroute, hlow, hflag]

end Sys2Proof.Proofs.Handlers
end

section
/-! PROOFS. The flash engine (43_flash_engine.md): erasing a page, writing a half, committing a
half, as named operations and as steps at the cursor. -/

namespace Sys2Proof.Proofs.Flash

open Sys2Proof Sys2Proof.Machine Sys2Proof.Proofs.Steps

/-! ### Regions and alignment -/

theorem not_inAppRegion {p : Params} {a n : Nat} (h : inAppRegion p a n = false) :
    ¬ (p.appBase.toNat ≤ a ∧ a + n ≤ p.appLimit.toNat) := fun hin =>
  Bool.false_ne_true (h.symm.trans ((inAppRegion_iff p a n).mpr hin))

theorem halfAligned_iff (a : Addr) (h : Half) :
    halfAligned a h = true ↔ a.toNat % 256 = halfOffset h := by
  simp [halfAligned, Config.pageBytes]

theorem halfAligned_half {a : Addr} {h : Half} (hal : halfAligned a h = true) :
    a.toNat % Config.halfBytes = 0 := by
  rw [halfAligned_iff] at hal
  cases h <;> simp only [halfOffset, Config.halfBytes] at hal ⊢ <;> omega

/-- The first half of a page in the region lies in the region. -/
theorem inAppRegion_firstHalf {p : Params} {a : Nat}
    (h : inAppRegion p a Config.pageBytes = true) : inAppRegion p a Config.halfBytes = true := by
  rw [inAppRegion_iff] at h ⊢
  simp only [Config.pageBytes, Config.halfBytes] at h ⊢
  omega

/-- The second half of a page in the region lies in the region. -/
theorem inAppRegion_secondHalf {p : Params} {a : Nat}
    (h : inAppRegion p a Config.pageBytes = true) :
    inAppRegion p (a + 128) Config.halfBytes = true := by
  rw [inAppRegion_iff] at h ⊢
  simp only [Config.pageBytes, Config.halfBytes] at h ⊢
  omega

/-- Half a page past a page base inside the region there is no overflow. -/
theorem toNat_add_half {p : Params} {a : Addr} (h : inAppRegion p a.toNat Config.halfBytes = true) :
    (a + 128#32).toNat = a.toNat + 128 := by
  have hlimit := p.appLimit.isLt
  rw [inAppRegion_iff] at h
  simp only [Config.halfBytes] at h
  rw [BitVec.toNat_add, BitVec.toNat_ofNat]
  omega

/-! ### The two operations -/

/-- Flash after the page at `a` is erased (R151). Irreducible, so that no comparison of states
unfolds the write of its 256 bytes. -/
@[irreducible] def pageErased (a : Addr) (s : State) : Memory :=
  s.flash.writeBytes a.toNat (List.replicate Config.pageBytes s.params.erasedByte)

/-- Flash after a half of the buffer is written at `a` (R152). -/
@[irreducible] def halfWritten (a : Addr) (h : Half) (s : State) : Memory :=
  s.flash.writeBytes a.toNat (halfBytesOf s h)

theorem pageErased_eq (a : Addr) (s : State) : pageErased a s =
    s.flash.writeBytes a.toNat (List.replicate Config.pageBytes s.params.erasedByte) := by
  unfold pageErased
  rfl

theorem halfWritten_eq (a : Addr) (h : Half) (s : State) :
    halfWritten a h s = s.flash.writeBytes a.toNat (halfBytesOf s h) := by
  unfold halfWritten
  rfl

section
variable {a : Addr} {s : State} (hwf : s.flash.wf = true)
include hwf

theorem pageErased_wf (hin : inAppRegion s.params a.toNat Config.pageBytes = true) :
    (pageErased a s).wf = true := by
  rw [pageErased_eq]
  exact Memory.writeBytes_wf hwf _ _ (by simpa using inAppRegion_space hin)

theorem halfWritten_wf (h : Half) (hin : inAppRegion s.params a.toNat Config.halfBytes = true) :
    (halfWritten a h s).wf = true := by
  rw [halfWritten_eq]
  exact Memory.writeBytes_wf hwf _ _ (by simpa using inAppRegion_space hin)

theorem read_pageErased (hin : inAppRegion s.params a.toNat Config.pageBytes = true) (x : Nat) :
    (pageErased a s).read x =
      if a.toNat ≤ x ∧ x < a.toNat + 256 then s.params.erasedByte else s.flash.read x := by
  rw [pageErased_eq, read_erased hwf hin, Config.pageBytes]

theorem read_halfWritten (h : Half) (hin : inAppRegion s.params a.toNat Config.halfBytes = true)
    (x : Nat) : (halfWritten a h s).read x =
      if a.toNat ≤ x ∧ x < a.toNat + 128 then s.bufByte (halfOffset h + (x - a.toNat))
      else s.flash.read x := by
  rw [halfWritten_eq, read_written hwf h hin, Config.halfBytes]

end

/-- Settles O31. -/
theorem erasePageOperation : Obligations.ErasePageOperation := by
  intro a s hwf
  have hexec : exec (.flashErasePage a) s = .next (orRaise s (flashErasePage a s)) := rfl
  rw [hexec]
  obtain ⟨hmis, h⟩ | ⟨hal, hout, h⟩ | ⟨hal, hin, h⟩ := flashErasePage_cases a s <;>
    rw [h]
  · refine ⟨fun _ => ?_, fun hal => absurd hal hmis, fun hal => absurd hal hmis⟩
    rw [orRaise_error, raise_flashContract]
  · refine ⟨fun hmis => absurd hal hmis, fun _ _ => ?_,
      fun _ hge hle => absurd ⟨hge, hle⟩ (not_inAppRegion hout)⟩
    rw [orRaise_error, raise_flashRange]
  · exact ⟨fun hmis => absurd hal hmis, fun _ hout => absurd ((inAppRegion_iff _ _ _).mp hin) hout,
      fun _ _ _ => ⟨{ s with flash := pageErased a s }, by rw [orRaise_ok, pageErased_eq], rfl,
        read_pageErased hwf hin⟩⟩

/-- Settles O32. -/
theorem writeHalfOperation : Obligations.WriteHalfOperation := by
  intro a h s hwf off
  have hoff : off = halfOffset h := by cases h <;> rfl
  have hexec : exec (.flashWriteHalf a h) s = .next (orRaise s (flashWriteHalf a h s)) := rfl
  rw [hexec, hoff]
  obtain ⟨hmis, h'⟩ | ⟨hal, hout, h'⟩ | ⟨hal, hin, h'⟩ := flashWriteHalf_cases a h s <;> rw [h']
  · refine ⟨fun _ => ?_, fun hal => absurd hal hmis, fun hal => absurd hal hmis⟩
    rw [orRaise_error, raise_flashContract]
  · refine ⟨fun hmis => absurd hal hmis, fun _ _ => ?_,
      fun _ hge hle => absurd ⟨hge, hle⟩ (not_inAppRegion hout)⟩
    rw [orRaise_error, raise_flashRange]
  · exact ⟨fun hmis => absurd hal hmis, fun _ hout => absurd ((inAppRegion_iff _ _ _).mp hin) hout,
      fun _ _ _ => ⟨{ s with flash := halfWritten a h s }, by rw [orRaise_ok, halfWritten_eq], rfl,
        read_halfWritten hwf h hin⟩⟩

/-! ### The steps at the cursor (R213, R214) -/

/-- Everything the erase at the cursor can do. -/
theorem eraseAtCursor_cases (s : State) :
    (s.curAddr.toNat % 256 ≠ 0 ∧
      eraseAtCursor s = { s with fault := some .flashContract, seq := .faulted }) ∨
    (s.curAddr.toNat % 256 = 0 ∧ inAppRegion s.params s.curAddr.toNat Config.pageBytes = false ∧
      eraseAtCursor s = { s with fault := some .flashRange, seq := .faulted }) ∨
    (s.curAddr.toNat % 256 = 0 ∧ inAppRegion s.params s.curAddr.toNat Config.pageBytes = true ∧
      eraseAtCursor s = { s with flash := pageErased s.curAddr s, seq := .pWrite }) := by
  by_cases hal : s.curAddr.toNat % 256 = 0
  · rw [eraseAtCursor, if_neg (not_not.mpr hal)]
    obtain ⟨hmis, -⟩ | ⟨-, hout, h⟩ | ⟨-, hin, h⟩ := flashErasePage_cases s.curAddr s
    · exact absurd hal hmis
    · exact .inr (.inl ⟨hal, hout, by rw [h, orRaise_error, raise_flashRange]⟩)
    · exact .inr (.inr ⟨hal, hin, by rw [h, orRaise_ok, pageErased_eq]⟩)
  · exact .inl ⟨hal, by rw [eraseAtCursor, if_pos hal, orRaise_error, raise_flashContract]⟩

/-- Everything the burst at the cursor can do. -/
theorem writeAtCursor_cases (s : State) :
    (s.curAddr.toNat % 256 ≠ halfOffset s.latch ∧
      writeAtCursor s = { s with fault := some .flashContract, seq := .faulted }) ∨
    (s.curAddr.toNat % 256 = halfOffset s.latch ∧
      inAppRegion s.params s.curAddr.toNat Config.halfBytes = false ∧
      writeAtCursor s = { s with fault := some .flashRange, seq := .faulted }) ∨
    (s.curAddr.toNat % 256 = halfOffset s.latch ∧
      inAppRegion s.params s.curAddr.toNat Config.halfBytes = true ∧
      writeAtCursor s =
        { s with flash := halfWritten s.curAddr s.latch s, seq := .pAdvance }) := by
  rw [← halfAligned_iff, ne_eq, ← halfAligned_iff]
  by_cases hal : halfAligned s.curAddr s.latch = true
  · rw [writeAtCursor, if_neg (by simp [hal])]
    obtain ⟨hmis, -⟩ | ⟨-, hout, h⟩ | ⟨-, hin, h⟩ := flashWriteHalf_cases s.curAddr s.latch s
    · exact absurd (halfAligned_half hal) hmis
    · exact .inr (.inl ⟨hal, hout, by rw [h, orRaise_error, raise_flashRange]⟩)
    · exact .inr (.inr ⟨hal, hin, by rw [h, orRaise_ok, halfWritten_eq]⟩)
  · exact .inl ⟨hal, by
      rw [writeAtCursor, if_pos (by simp [hal]), orRaise_error, raise_flashContract]⟩

/-- Settles O24. -/
theorem eraseStepErasesCursorPage : Obligations.EraseStepErasesCursorPage := by
  intro s hrun hseq hwf
  rw [exec_stepAt (q := .pErase) rfl hrun hseq, stepEffect]
  obtain ⟨hmis, h⟩ | ⟨hal, hout, h⟩ | ⟨hal, hin, h⟩ := eraseAtCursor_cases s <;> rw [h]
  · exact ⟨fun _ => rfl, fun hal => absurd hal hmis, fun hal => absurd hal hmis⟩
  · exact ⟨fun hmis => absurd hal hmis, fun _ _ => rfl,
      fun _ hge hle => absurd ⟨hge, hle⟩ (not_inAppRegion hout)⟩
  · exact ⟨fun hmis => absurd hal hmis, fun _ hout => absurd ((inAppRegion_iff _ _ _).mp hin) hout,
      fun _ _ _ => ⟨_, rfl, rfl, read_pageErased hwf hin⟩⟩

/-- Settles O25. -/
theorem writeStepWritesLatchedHalf : Obligations.WriteStepWritesLatchedHalf := by
  intro s hrun hseq hwf off
  have hoff : off = halfOffset s.latch := by
    simp only [off]
    cases s.latch <;> rfl
  rw [exec_stepAt (q := .pWrite) rfl hrun hseq, stepEffect, hoff]
  obtain ⟨hmis, h⟩ | ⟨hal, hout, h⟩ | ⟨hal, hin, h⟩ := writeAtCursor_cases s <;> rw [h]
  · exact ⟨fun _ => rfl, fun hal => absurd hal hmis, fun hal => absurd hal hmis⟩
  · exact ⟨fun hmis => absurd hal hmis, fun _ _ => rfl,
      fun _ hge hle => absurd ⟨hge, hle⟩ (not_inAppRegion hout)⟩
  · exact ⟨fun hmis => absurd hal hmis, fun _ hout => absurd ((inAppRegion_iff _ _ _).mp hin) hout,
      fun _ _ _ => ⟨_, rfl, rfl, read_halfWritten hwf s.latch hin⟩⟩

/-! ### Committing a half (R153) -/

/-- Flash after the first half of the page at `a` is committed: the page erased, the half written.
-/
def firstCommitted (a : Addr) (s : State) : Memory :=
  halfWritten a .first { s with flash := pageErased a s }

theorem exec_commitHalfPage (a : Addr) (h : Half) (s : State) :
    exec (.commitHalfPage a h) s = .next (orRaise s (commitHalfPage a h s)) := rfl

section
variable {a : Addr} {s : State}

/-- Off its half of a page no half is committed. -/
theorem exec_commit_misaligned {h : Half} (hmis : a.toNat % 256 ≠ halfOffset h) :
    exec (.commitHalfPage a h) s =
      .next { s with fault := some .flashContract, seq := .faulted } := by
  rw [ne_eq, ← halfAligned_iff, Bool.not_eq_true] at hmis
  simp [exec_commitHalfPage, commitHalfPage, hmis, orRaise]

section
variable (hal : a.toNat % 256 = 0)
include hal

theorem exec_commitFirst_outside
    (hout : inAppRegion s.params a.toNat Config.pageBytes = false) :
    exec (.commitHalfPage a .first) s =
      .next { s with fault := some .flashRange, seq := .faulted } := by
  have hal' : halfAligned a .first = true := (halfAligned_iff a .first).mpr hal
  obtain ⟨hmis, -⟩ | ⟨-, -, h⟩ | ⟨-, hin, -⟩ := flashErasePage_cases a s
  · exact absurd hal hmis
  · simp [exec_commitHalfPage, commitHalfPage, hal', h, orRaise]
  · exact absurd hin (by simp [hout])

theorem exec_commitFirst (hin : inAppRegion s.params a.toNat Config.pageBytes = true) :
    exec (.commitHalfPage a .first) s = .next { s with flash := firstCommitted a s } := by
  have hal' : halfAligned a .first = true := (halfAligned_iff a .first).mpr hal
  have herase : flashErasePage a s = .ok { s with
      flash := s.flash.writeBytes a.toNat
        (List.replicate Config.pageBytes s.params.erasedByte) } := by
    simp [flashErasePage, hal, hin]
  have hhalf := inAppRegion_firstHalf hin
  have hal128 := halfAligned_half hal'
  simp [exec_commitHalfPage, commitHalfPage, hal', herase, flashWriteHalf, hal128, hhalf, orRaise,
    firstCommitted, halfWritten_eq, pageErased_eq, halfBytesOf]

end

section
variable (hal : a.toNat % 256 = 128)
include hal

theorem exec_commitSecond_outside
    (hout : inAppRegion s.params a.toNat Config.halfBytes = false) :
    exec (.commitHalfPage a .second) s =
      .next { s with fault := some .flashRange, seq := .faulted } := by
  have hal' : halfAligned a .second = true := (halfAligned_iff a .second).mpr hal
  have hal128 := halfAligned_half hal'
  simp [exec_commitHalfPage, commitHalfPage, hal', flashWriteHalf, hal128, hout, orRaise]

theorem exec_commitSecond (hin : inAppRegion s.params a.toNat Config.halfBytes = true) :
    exec (.commitHalfPage a .second) s = .next { s with flash := halfWritten a .second s } := by
  have hal' : halfAligned a .second = true := (halfAligned_iff a .second).mpr hal
  have hal128 := halfAligned_half hal'
  simp [exec_commitHalfPage, commitHalfPage, hal', flashWriteHalf, hal128, hin, orRaise,
    halfWritten_eq]

end

section
variable (hwf : s.flash.wf = true) (hin : inAppRegion s.params a.toNat Config.pageBytes = true)
include hwf hin

theorem firstCommitted_wf : (firstCommitted a s).wf = true :=
  halfWritten_wf (s := { s with flash := pageErased a s }) (pageErased_wf hwf hin) .first
    (inAppRegion_firstHalf hin)

theorem read_firstCommitted (x : Nat) : (firstCommitted a s).read x =
    if a.toNat ≤ x ∧ x < a.toNat + 128 then s.bufByte (x - a.toNat)
    else if a.toNat + 128 ≤ x ∧ x < a.toNat + 256 then s.params.erasedByte
    else s.flash.read x := by
  rw [firstCommitted, read_halfWritten (s := { s with flash := pageErased a s })
    (pageErased_wf hwf hin) .first (inAppRegion_firstHalf hin), halfOffset, Nat.zero_add]
  by_cases hfirst : a.toNat ≤ x ∧ x < a.toNat + 128
  · rw [if_pos hfirst, if_pos hfirst]; rfl
  · rw [if_neg hfirst, if_neg hfirst, read_pageErased hwf hin x]
    exact if_congr (by omega) rfl rfl

end
end

/-- Settles O33. -/
theorem commitErasesOnlyWithFirstHalf : Obligations.CommitErasesOnlyWithFirstHalf := by
  intro d s hwf _
  have hregion : ∀ n, ¬ (s.params.appBase.toNat ≤ d.toNat ∧
      d.toNat + n ≤ s.params.appLimit.toNat) → inAppRegion s.params d.toNat n = false := fun n h =>
    Bool.eq_false_iff.mpr fun hin => h ((inAppRegion_iff _ _ _).mp hin)
  refine ⟨exec_commit_misaligned (h := .first), exec_commit_misaligned (h := .second),
    fun hal hout => exec_commitFirst_outside hal (hregion _ hout),
    fun hal hout => exec_commitSecond_outside hal (hregion _ hout),
    fun hal hge hle => ?_, fun hal hge hle => ?_⟩
  · have hin := (inAppRegion_iff s.params d.toNat Config.pageBytes).mpr ⟨hge, hle⟩
    exact ⟨_, exec_commitFirst hal hin, rfl, read_firstCommitted hwf hin⟩
  · have hin := (inAppRegion_iff s.params d.toNat Config.halfBytes).mpr ⟨hge, hle⟩
    exact ⟨_, exec_commitSecond hal hin, rfl, read_halfWritten hwf .second hin⟩

/-! ### Committing a page (R161) -/

/-- Flash after both halves of the page at `a` are committed. -/
def pageCommitted (a : Addr) (s : State) : Memory :=
  halfWritten (a + 128#32) .second { s with flash := firstCommitted a s }

section
variable {a : Addr} {s : State} (hin : inAppRegion s.params a.toNat Config.pageBytes = true)
include hin

theorem secondHalf_toNat : (a + 128#32).toNat = a.toNat + 128 :=
  toNat_add_half (inAppRegion_firstHalf hin)

theorem secondHalf_inAppRegion :
    inAppRegion s.params (a + 128#32).toNat Config.halfBytes = true := by
  rw [secondHalf_toNat hin]
  exact inAppRegion_secondHalf hin

theorem exec_commitPage (hal : a.toNat % 256 = 0) :
    exec (.commitHalfPage a .first) s = .next { s with flash := firstCommitted a s } ∧
    exec (.commitHalfPage (a + 128#32) .second) { s with flash := firstCommitted a s } =
      .next { s with flash := pageCommitted a s } := by
  have hal' : (a + 128#32).toNat % 256 = 128 := by
    rw [secondHalf_toNat hin]
    omega
  exact ⟨exec_commitFirst hal hin, exec_commitSecond hal' (secondHalf_inAppRegion hin)⟩

variable (hwf : s.flash.wf = true)
include hwf

theorem pageCommitted_wf : (pageCommitted a s).wf = true :=
  halfWritten_wf (s := { s with flash := firstCommitted a s }) (firstCommitted_wf hwf hin)
    .second (secondHalf_inAppRegion hin)

theorem read_pageCommitted (x : Nat) : (pageCommitted a s).read x =
    if a.toNat ≤ x ∧ x < a.toNat + 256 then s.bufByte (x - a.toNat) else s.flash.read x := by
  rw [pageCommitted, read_halfWritten (s := { s with flash := firstCommitted a s })
    (firstCommitted_wf hwf hin) .second (secondHalf_inAppRegion hin),
    read_firstCommitted hwf hin, secondHalf_toNat hin, halfOffset, Config.halfBytes]
  by_cases hsecond : a.toNat + 128 ≤ x ∧ x < a.toNat + 128 + 128
  · rw [if_pos hsecond, if_pos (by omega), show 128 + (x - (a.toNat + 128)) = x - a.toNat by omega]
    rfl
  · rw [if_neg hsecond]
    by_cases hfirst : a.toNat ≤ x ∧ x < a.toNat + 128
    · rw [if_pos hfirst, if_pos (by omega)]
    · rw [if_neg hfirst, if_neg (by omega), if_neg (by omega)]

/-- Committing the page again leaves the same flash: it reads the same everywhere. -/
theorem pageCommitted_idempotent :
    pageCommitted a { s with flash := pageCommitted a s } = pageCommitted a s := by
  have hwf' := pageCommitted_wf hin hwf
  refine Memory.ext_wf
    (pageCommitted_wf (s := { s with flash := pageCommitted a s }) hin hwf') hwf' fun x => ?_
  rw [read_pageCommitted (s := { s with flash := pageCommitted a s }) hin hwf',
    read_pageCommitted hin hwf, State.bufByte, State.bufByte]
  split
  · rfl
  · rfl

end

/-- Settles O55. -/
theorem pageCommitIsIdempotent : Obligations.PageCommitIsIdempotent := by
  intro s a hwf hal hge hle
  have hin := (inAppRegion_iff s.params a.toNat Config.pageBytes).mpr ⟨hge, hle⟩
  obtain ⟨hfirst, hsecond⟩ := exec_commitPage hin hal
  obtain ⟨hfirst', hsecond'⟩ :=
    exec_commitPage (s := { s with flash := pageCommitted a s }) hin hal
  rw [pageCommitted_idempotent hin hwf] at hsecond'
  exact ⟨_, _, _, hfirst, hsecond, hfirst', hsecond'⟩

/-- Settles O56. -/
theorem committedHalfReadsBack : Obligations.CommittedHalfReadsBack := by
  intro s a hwf hal hge hle
  have hin := (inAppRegion_iff s.params a.toNat Config.pageBytes).mpr ⟨hge, hle⟩
  have hspace := inAppRegion_space hin
  simp only [Config.pageBytes] at hspace
  obtain ⟨hfirst, hsecond⟩ := exec_commitPage hin hal
  refine ⟨_, _, hfirst, hsecond, fun k hk => ⟨?_, ?_, ?_⟩⟩
  · rw [memRead1_inside (by omega), read_firstCommitted hwf hin, if_pos (by omega),
      Nat.add_sub_cancel_left]
  · rw [memRead1_inside (by omega), read_pageCommitted hin hwf, if_pos (by omega),
      Nat.add_sub_cancel_left]
  · rw [memRead1_inside (by omega), read_pageCommitted hin hwf, if_pos (by omega), Nat.add_assoc,
      Nat.add_sub_cancel_left]

end Sys2Proof.Proofs.Flash
end

section
/-! PROOFS. The micro-steps of the session controller (46_session_controller.md), the capture
operations (42_page_capture.md section 1) and the silent `receive_command`. -/

namespace Sys2Proof.Proofs.Session

open Sys2Proof Sys2Proof.Machine Sys2Proof.Proofs.Steps Sys2Proof.Proofs.Routes
  Sys2Proof.Proofs.HandOff Sys2Proof.Proofs.Handlers

/-- Settles O18. -/
theorem receiveEntryAndPoll : Obligations.ReceiveEntryAndPoll := by
  intro s hrun
  refine ⟨fun hseq => exec_stepAt (q := .aPoll) rfl hrun hseq,
    fun hseq => exec_stepAt (q := .cEnter) rfl hrun hseq, fun hseq hdone => ?_,
    fun hseq hopen => ?_⟩ <;> rw [exec_stepAt (q := .cRecv) rfl hrun hseq, stepEffect]
  · rw [if_pos hdone]
  · rw [if_neg (by simp [hopen])]

/-! ### The dispatch (R205) -/

/-- At the dispatch of a frame that decodes to `i`, the row of `SEQ` and the wire row of `i` both
send `SEQ` to the target of `i`. -/
theorem exec_dispatch {s : State} {i : Instr} (hrun : s.halted = false) (hseq : s.seq = .cDispatch)
    (hframe : s.frameInstr = i) :
    exec .stepCDispatch s = .next { s with seq := commandTarget i } ∧
    (s.mode = .commandAndControl → exec i s = .next { s with seq := commandTarget i }) := by
  subst hframe
  rw [← dispatchTarget_eq]
  exact ⟨exec_stepAt (q := .cDispatch) rfl hrun hseq,
    fun hmode => exec_frameInstr ((formatC_iff s).mpr ⟨hmode, hseq, hrun⟩)⟩

section
variable {p : Params} (hvalid : p.valid = true)
include hvalid

theorem decodeOpcode_enterProg : decodeOpcode p p.cmdEnterProg = .enterProg := by
  obtain ⟨hre, -⟩ := (Params.valid_iff p).mp hvalid
  rw [decodeOpcode, if_neg hre.symm, if_pos rfl]

theorem decodeOpcode_reboot : decodeOpcode p p.cmdReboot = .reboot := by
  obtain ⟨-, hrr, her, -⟩ := (Params.valid_iff p).mp hvalid
  rw [decodeOpcode, if_neg hrr.symm, if_neg her.symm, if_pos rfl]

end

theorem decodeOpcode_runApp (p : Params) : decodeOpcode p p.cmdRunApp = .runApp := if_pos rfl

theorem decodeOpcode_other {p : Params} {c : Byte} (hrun : c ≠ p.cmdRunApp)
    (henter : c ≠ p.cmdEnterProg) (hreboot : c ≠ p.cmdReboot) :
    decodeOpcode p c = .cmdIgnored c := by
  rw [decodeOpcode, if_neg hrun, if_neg henter, if_neg hreboot]

/-- Settles O19: each clause is the dispatch of the instruction that the frame decodes to. -/
theorem dispatchByFirstPayloadByte : Obligations.DispatchByFirstPayloadByte := by
  intro s hvalid hseq hrun toSeq c
  have hdispatch : ∀ i, s.rxLen ≠ 0 → decodeOpcode s.params c = i →
      exec .stepCDispatch s = toSeq (commandTarget i) ∧
      (s.mode = .commandAndControl → exec i s = toSeq (commandTarget i)) :=
    fun i hlen hop => exec_dispatch hrun hseq ((frameInstr_opcode hlen).trans hop)
  exact ⟨fun hlen => exec_dispatch hrun hseq (frameInstr_empty hlen),
    fun hlen hc => hdispatch .runApp hlen (hc ▸ decodeOpcode_runApp s.params),
    fun hlen hc => hdispatch .enterProg hlen (hc ▸ decodeOpcode_enterProg hvalid),
    fun hlen hc => hdispatch .reboot hlen (hc ▸ decodeOpcode_reboot hvalid),
    fun hlen hr he hb => hdispatch (.cmdIgnored c) hlen (decodeOpcode_other hr he hb)⟩

/-! ### Arming, advancing and closing a session (R208 to R221) -/

/-- The arming of a session, as R209 lists it. -/
theorem armSession_eq (s : State) : armSession s = { s with
    sup := if s.sup = .armed then .disarmed else s.sup
    tif := if s.sup = .armed then false else s.tif
    curAddr := s.params.appBase
    curPages := 0
    idleCnt := 0, msgDone := false, idleIf := false
    htif := false, tcif := false, teif := false
    capstat := .none, dmaIdx := 0, rxDma := true, dmaEn := true
    idleIe := true
    mode := .programmerMode
    seq := .pCheck } := by
  rw [armSession, disarm_eq, startCapture]

/-- Settles O21. -/
theorem enterProgrammerClearsThenArms : Obligations.EnterProgrammerClearsThenArms := by
  intro s hrun
  refine ⟨fun hseq => ?_, fun hseq => ?_⟩
  · exact ⟨_, exec_stepAt (q := .gClear) rfl hrun hseq, rfl, bufByte_clearBuffer s⟩
  · rw [exec_stepAt (q := .gArm) rfl hrun hseq, stepEffect, armSession_eq]

/-- Settles O26. -/
theorem advanceCursorThenClearStatus : Obligations.AdvanceCursorThenClearStatus := by
  intro s hrun
  exact ⟨exec_stepAt (q := .pAdvance) rfl hrun, exec_stepAt (q := .pClear) rfl hrun⟩

/-- Settles O27. -/
theorem sessionClosingSteps : Obligations.SessionClosingSteps := by
  intro s hrun
  exact ⟨exec_stepAt (q := .eStop) rfl hrun, exec_stepAt (q := .eReport) rfl hrun,
    exec_stepAt (q := .eRewind) rfl hrun,
    fun hseq => ⟨_, exec_stepAt (q := .eClear) rfl hrun hseq, rfl, bufByte_clearBuffer s⟩,
    exec_stepAt (q := .eFallback) rfl hrun⟩

/-- Settles O29: the rows are the two operations as their rules write them. -/
theorem startAndStopCapture : Obligations.StartAndStopCapture := fun _ _ => ⟨rfl, rfl⟩

/-! ### `receive_command` with nothing on the link (R110, R123, R124) -/

/-- Settles O38: after the entry the one poll finds the message open. -/
theorem receiveCommandBlocksOnSilence : Obligations.ReceiveCommandBlocksOnSilence := by
  intro s hseq hrun hsilent
  have hstart : stepEnabled .cEnter s = true := (stepEnabled_iff .cEnter s).mpr ⟨hseq, hrun⟩
  have hinside : inReceive (enterReceive s) = true :=
    (stepEnabled_iff .cRecv (enterReceive s)).mpr ⟨rfl, hrun⟩
  have hpoll : execStepCRecv (enterReceive s) = .next (enterReceive s) :=
    exec_stepAt (q := .cRecv) (i := .stepCRecv) rfl hrun rfl
  have hspan : exec .receiveCommand s = receiveSpan s.schedule (enterReceive s) := if_pos hstart
  rw [hspan, hsilent, receiveSpan, if_pos hinside, hpoll, enterReceive, hsilent]

/-! ### Flash outside the flash engine (R81) -/

theorem reboot_flash (s : State) : (Machine.reboot s).flash = s.flash := by
  obtain ⟨u, hreboot, hu⟩ := reboot_eq_resetBlock s
  rw [hreboot, resetBlock_flash, hu]

/-- Settles O49: no row of the list writes flash. -/
theorem flashSurvivesResetRebootHalt : Obligations.FlashSurvivesResetRebootHalt := by
  intro s t i hi hexec a
  suffices hflash : t.flash = s.flash by rw [hflash]
  simp only [List.mem_cons, List.not_mem_nil, or_false] at hi
  obtain rfl | rfl | rfl | rfl | rfl | rfl | rfl := hi
  · cases hexec; rfl
  · cases hexec; rfl
  · cases hexec; exact reboot_flash s
  · cases hexec; exact reboot_flash s
  · obtain ⟨-, rfl⟩ := (exec_stepInstr_eq_next (q := .bJump) rfl).mp hexec
    exact reboot_flash s
  · cases hexec
    split <;> simp
  · obtain ⟨-, rfl⟩ := exec_irqTe_eq_next.mp hexec
    exact raise_flash .transferFault s

end Sys2Proof.Proofs.Session
end

section
/-! PROOFS. The codec of the link (30_encoding.md): what the scan of a frame gives, decode after
encode, and the instruction a table word or a fetched step stands for. -/

namespace Sys2Proof.Proofs.Codec

open Sys2Proof Sys2Proof.Machine Sys2Proof.Proofs.Receiver Sys2Proof.Proofs.Supervisor
  Sys2Proof.Proofs.Steps Sys2Proof.Proofs.Session

/-! ### The scan of a frame (R92) -/

section
variable (p : Params)

/-- Two idle frames with no byte between them end the frame. -/
theorem scanFrame_end (f : FrameState) (payload : List Byte) :
    scanFrame p f payload 0 [.idle, .idle] = .ok payload := by
  simp [scanFrame, Config.idleDebounce]

/-- A byte before the payload moves the framing state and is not stored. -/
theorem scanFrame_noise {f : FrameState} (hf : f ≠ .messageActive) (payload : List Byte) (k : Nat)
    (b : Byte) (rest : List LinkSymbol) :
    scanFrame p f payload k (.byte b :: rest) = scanFrame p (nextFrame p f b) payload 0 rest := by
  cases f with
  | messageActive => exact absurd rfl hf
  | idle | startDetectedOnce => rw [scanFrame]; simp

/-- A byte of the message is stored while the buffer has a place for it (R100, R118). -/
theorem scanFrame_payload {payload : List Byte} (h : payload.length < 256) (k : Nat) (b : Byte)
    (rest : List LinkSymbol) :
    scanFrame p .messageActive payload k (.byte b :: rest) =
      scanFrame p .messageActive (payload ++ [b]) 0 rest := by
  rw [scanFrame, if_pos h]

/-- With the buffer full the scan stores nothing more (R119). -/
theorem scanFrame_overflow {payload : List Byte} (h : ¬ payload.length < 256) (k : Nat) (b : Byte)
    (rest : List LinkSymbol) :
    scanFrame p .messageActive payload k (.byte b :: rest) = .error .overflow := by
  rw [scanFrame, if_neg h]

/-- Once the start sequence is seen no byte leaves the message. -/
theorem foldl_nextFrame_active (bs : List Byte) :
    bs.foldl (nextFrame p) .messageActive = .messageActive := by
  induction bs with
  | nil => rfl
  | cons b bs ih => exact ih

theorem scanFrame_noises {f : FrameState} (noise : List Byte)
    (hnoise : noise.foldl (nextFrame p) f ≠ .messageActive) (rest : List LinkSymbol) :
    scanFrame p f [] 0 (noise.map .byte ++ rest) =
      scanFrame p (noise.foldl (nextFrame p) f) [] 0 rest := by
  induction noise generalizing f with
  | nil => rfl
  | cons b noise ih =>
    have hf : f ≠ .messageActive := by
      rintro rfl
      exact hnoise (foldl_nextFrame_active p (b :: noise))
    rw [List.map_cons, List.cons_append, scanFrame_noise p hf]
    exact ih hnoise

theorem scanFrame_payloads {front : List Byte} (payload : List Byte)
    (h : front.length + payload.length ≤ 256) :
    scanFrame p .messageActive front 0 (payload.map .byte ++ [.idle, .idle]) =
      .ok (front ++ payload) := by
  induction payload generalizing front with
  | nil => rw [List.append_nil]; exact scanFrame_end p .messageActive front
  | cons b payload ih =>
    rw [List.length_cons] at h
    rw [List.map_cons, List.cons_append, scanFrame_payload p (by omega), ih (by simp; omega),
      List.append_assoc, List.singleton_append]

/-- A frame scans to its payload, whatever noise that does not start a message precedes it. -/
theorem scanFrame_frameSymbols {noise payload : List Byte}
    (hnoise : noise.foldl (nextFrame p) .idle = .idle) (hlen : payload.length ≤ 256) :
    scanFrame p .idle [] 0 (noise.map .byte ++ frameSymbols p payload) = .ok payload := by
  have hidle : noise.foldl (nextFrame p) .idle ≠ .messageActive := by simp [hnoise]
  rw [scanFrame_noises p noise hidle, hnoise, frameSymbols, scanFrame_noise p (by simp),
    nextFrame, if_pos rfl, scanFrame_noise p (by simp), nextFrame, if_pos rfl,
    scanFrame_payloads p payload (by simpa using hlen), List.nil_append]

theorem decode_frameSymbols {payload : List Byte} (hlen : payload.length ≤ 256) :
    decode p .c (frameSymbols p payload) = .ok (decodePayload p payload) := by
  have hscan := scanFrame_frameSymbols p (noise := []) rfl hlen
  rw [List.map_nil, List.nil_append] at hscan
  rw [decode, hscan]

end

/-- A scan that ends in a payload never stored more than the buffer holds. -/
theorem scanFrame_length {p : Params} {syms : List LinkSymbol} {f : FrameState}
    {front payload : List Byte} {k : Nat} (hfront : front.length ≤ 256)
    (h : scanFrame p f front k syms = .ok payload) : payload.length ≤ 256 := by
  induction syms generalizing f front k with
  | nil => rw [scanFrame] at h; cases h
  | cons sym rest ih =>
    cases sym with
    | idle =>
      rw [scanFrame] at h
      split_ifs at h
      · cases h; exact hfront
      · exact ih hfront h
    | byte b =>
      by_cases hf : f = .messageActive
      · subst hf
        by_cases hfits : front.length < 256
        · rw [scanFrame_payload p hfits] at h
          exact ih (by simpa using hfits) h
        · rw [scanFrame_overflow p hfits] at h
          cases h
      · rw [scanFrame_noise p hf] at h
        exact ih hfront h

/-! ### Decode after encode (R91 to R99) -/

theorem decodeActivation_wellFormed (p : Params) (b : Byte) :
    (decodeActivation p b).wellFormed p = true := by
  unfold decodeActivation
  split
  · rfl
  · simpa [Instr.wellFormed]

theorem decodeOpcode_wellFormed (p : Params) (c : Byte) :
    (decodeOpcode p c).wellFormed p = true := by
  unfold decodeOpcode
  split_ifs with hrun henter hreboot
  · rfl
  · rfl
  · rfl
  · simp [Instr.wellFormed, hrun, henter, hreboot]

theorem decode_command {p : Params} {c : Byte} {i : Instr} (h : decodeOpcode p c = i) :
    decode p .c (frameSymbols p [c]) = .ok i := by
  rw [decode_frameSymbols p (by simp), decodePayload, h]

theorem decode_encode {p : Params} (hvalid : p.valid = true) {i : Instr} {f : Format}
    {syms : List LinkSymbol} (hwf : i.wellFormed p = true) (henc : encode p i = some (f, syms)) :
    decode p f syms = .ok i := by
  cases i <;> cases henc
  case activate => simp [decode, decodeActivation]
  case actIgnored b =>
    have hb : b ≠ p.activationByte := by simpa [Instr.wellFormed] using hwf
    simp [decode, decodeActivation, hb]
  case runApp => exact decode_command (decodeOpcode_runApp p)
  case enterProg => exact decode_command (decodeOpcode_enterProg hvalid)
  case reboot => exact decode_command (decodeOpcode_reboot hvalid)
  case cmdIgnored c =>
    obtain ⟨⟨hrun, henter⟩, hreboot⟩ :
        (c ≠ p.cmdRunApp ∧ c ≠ p.cmdEnterProg) ∧ c ≠ p.cmdReboot := by
      simpa [Instr.wellFormed] using hwf
    exact decode_command (decodeOpcode_other hrun henter hreboot)
  case emptyFrame => exact decode_frameSymbols p (payload := []) (by simp)
  case imageByte d => rfl

/-- Settles O43. -/
theorem decodeEncodeAndNoisyFrames : Obligations.DecodeEncodeAndNoisyFrames := by
  intro p hvalid
  refine ⟨fun i f syms hwf henc => decode_encode hvalid hwf henc,
    fun noise payload hnoise hlen => ?_⟩
  rw [decode, scanFrame_frameSymbols p hnoise hlen]
  cases payload <;> rfl

/-- Settles O42. -/
theorem writtenBytesDecode : Obligations.WrittenBytesDecode := by
  unfold Obligations.WrittenBytesDecode
  decide

/-! ### The captured frame in the buffer (R94, R110) -/

/-- The bytes captured are the payload that stands at the front of the buffer. -/
theorem received_eq {s : State} {payload : List Byte} (hlen : s.rxLen = payload.length)
    (hfits : payload.length ≤ 256)
    (hbuf : ∀ k, (h : k < payload.length) → s.bufByte k = payload[k]) : s.received = payload := by
  refine List.ext_getElem (by simp [State.received, hlen, hfits]) fun k hk hk' => ?_
  rw [← hbuf k hk']
  simp [State.received, State.bufByte, show k < 256 by omega]

/-- A state that holds a payload at the front of its buffer decodes to the payload's instruction. -/
theorem frameInstr_eq {s : State} {payload : List Byte} (hlen : s.rxLen = payload.length)
    (hfits : payload.length ≤ 256)
    (hbuf : ∀ k, (h : k < payload.length) → s.bufByte k = payload[k]) :
    s.frameInstr = decodePayload s.params payload := by
  rw [State.frameInstr, received_eq hlen hfits hbuf]

theorem bufByte_placePayload {s : State} {buf : Vector Byte Config.bufBytes} {payload : List Byte}
    (hplaced : s.buf = placePayload buf payload) (hfits : payload.length ≤ 256) (k : Nat)
    (hk : k < payload.length) : s.bufByte k = payload[k] := by
  simp [State.bufByte, hplaced, placePayload, show k < 256 by omega, hk]

/-! ### Fetching (R101, R105) -/

theorem fetch_rx_formatA {b : Byte} {s : State} (h : formatA s = true) :
    fetch (.rx b) s = some (decodeActivation s.params b) := by
  simp [fetch, fetchRx, h]

theorem fetch_step_formatC {s : State} (h : formatC s = true) :
    fetch .step s = some s.frameInstr := by
  obtain ⟨-, -, hrun⟩ := (formatC_iff s).mp h
  simp [fetch, fetchStep, hrun, h]

theorem routeInstr_wellFormed (p : Params) (r : RxRoute) (b : Byte) :
    (routeInstr r b).wellFormed p = true := by
  cases r <;> rfl

theorem stepInstr_wellFormed (p : Params) {q : Seq} {i : Instr} (h : stepInstr q = some i) :
    i.wellFormed p = true := by
  cases q <;> cases h <;> rfl

theorem fetchRx_wellFormed (b : Byte) (s : State) : (fetchRx b s).wellFormed s.params = true := by
  unfold fetchRx
  split_ifs
  · exact decodeActivation_wellFormed s.params b
  · rfl
  · exact routeInstr_wellFormed s.params (rxRoute s) b

theorem frameInstr_wellFormed (s : State) : s.frameInstr.wellFormed s.params = true := by
  obtain ⟨h, -⟩ | ⟨h, -⟩ := received_cases s
  · rw [frameInstr_empty h]; rfl
  · rw [frameInstr_opcode h]; exact decodeOpcode_wellFormed s.params s.opcode

theorem fetch_wellFormed {e : RunStep} {s : State} {i : Instr} (h : fetch e s = some i) :
    i.wellFormed s.params = true := by
  cases e with
  | rx b => cases h; exact fetchRx_wellFormed b s
  | step =>
    obtain rfl | hrow := fetchStep_cases h
    · exact frameInstr_wellFormed s
    · exact stepInstr_wellFormed s.params hrow
  | _ => cases h; rfl

/-- Settles O40. -/
theorem fetchedRowAgreesWithGeneralRow : Obligations.FetchedRowAgreesWithGeneralRow := by
  intro s e i hf
  refine ⟨fetch_wellFormed hf, ?_, ?_⟩
  · rintro b rfl
    cases hf
    rw [exec_fetchRx, exec_rx]
  · rintro rfl
    obtain ⟨hfrozen, hexec⟩ := fetchStep_eq_some hf
    have hlive := (frozen_eq_false s).mp hfrozen
    obtain ⟨g, hg⟩ := stepInstr_of_live hlive
    exact ⟨g, hg, by rw [hexec, exec_stepAt hg hlive.1 rfl]⟩

/-! ### One step of the machine on a schedule (log entries 1, 2) -/

theorem step_scheduled {s : State} {e : RunStep} {rest : List RunStep}
    (hsch : s.schedule = e :: rest) {i : Instr}
    (hf : fetch e { s with schedule := rest } = some i) :
    step s = exec i { s with schedule := rest } := by
  simp only [step, nextStep, hsch, hf]

theorem step_unscheduled {s : State} (hsch : s.schedule = []) {i : Instr}
    (hf : fetch .step s = some i) : step s = exec i s := by
  simp only [step, nextStep, hsch, hf]

/-- Settles O39. -/
theorem stepRunsFetchedInstruction : Obligations.StepRunsFetchedInstruction :=
  fun _ _ => ⟨fun _ _ hsch hf => step_scheduled hsch hf, fun hsch hf => step_unscheduled hsch hf⟩

/-- A scheduled step of the machine is that step of a run (log entry 1). -/
theorem step_scheduled_iff {s t : State} {e : RunStep} {rest : List RunStep}
    (hsch : s.schedule = e :: rest) : step s = .next t ↔
      enabled e { s with schedule := rest } = true ∧ effect e { s with schedule := rest } = t := by
  rw [← runStep_iff]
  cases hf : fetch e { s with schedule := rest } with
  | none => simp [step, nextStep, hsch, hf]
  | some i => simp [step_scheduled hsch hf]

/-- With nothing scheduled a step is the main context's, or leaves a terminal state (log entry 2).
-/
theorem step_unscheduled_cases {s t : State} (hsch : s.schedule = []) (h : step s = .next t) :
    (enabled .step s = true ∧ effect .step s = t) ∨ s = t := by
  cases hf : fetch .step s with
  | none => exact .inr (by simpa [step, nextStep, hsch, hf] using h)
  | some i => exact .inl (runStep_iff.mp ⟨i, hf, step_unscheduled hsch hf ▸ h⟩)

/-- What a step of the machine can be: a step of a run, on the state with the schedule moved past
it, or nothing. -/
theorem step_cases {s t : State} (h : step s = .next t) :
    (∃ e rest, enabled e { s with schedule := rest } = true ∧
      effect e { s with schedule := rest } = t) ∨ s = t := by
  cases hsch : s.schedule with
  | cons e rest => exact .inl ⟨e, rest, (step_scheduled_iff hsch).mp h⟩
  | nil =>
    obtain hstep | hstay := step_unscheduled_cases hsch h
    · exact .inl ⟨.step, [], by rwa [← hsch]⟩
    · exact .inr hstay

/-! ### Table words (log entry 17) -/

/-- A table word is the activation byte alone, or bytes that stand as the payload of a frame. -/
theorem tableSymbols_cases {nbits w : Nat} {f : Format} {syms : List LinkSymbol}
    (h : tableSymbols nbits w = some (f, syms)) :
    (f = .a ∧ syms = [.byte (byteOf w 0)]) ∨
    (f = .c ∧ ∃ bs, syms = frameSymbols .t0 bs) := by
  unfold tableSymbols at h
  split_ifs at h <;> cases h
  · exact .inl ⟨rfl, rfl⟩
  · exact .inr ⟨rfl, _, rfl⟩

/-- Settles O41: a format A word is placed as a received byte where it is compared, a frame's bytes
as a captured frame at its dispatch; there the fetch decodes it. -/
theorem tableWordRunsNext : Obligations.TableWordRunsNext := by
  intro s nbits w i hdecode
  unfold decodeTableWord at hdecode
  split at hdecode
  case h_2 => cases hdecode
  case h_1 f syms hsyms =>
    obtain ⟨rfl, rfl⟩ | ⟨rfl, bs, rfl⟩ := tableSymbols_cases hsyms
    · cases hdecode
      refine ⟨.rx (byteOf w 0), s.schedule, by simp [State.withFetchWord, placeWord, hsyms],
        rfl, ?_⟩
      rw [State.withFetchWord, placeWord, hsyms]
      exact step_scheduled rfl (fetch_rx_formatA rfl)
    · cases hscan : scanFrame .t0 .idle [] 0 (frameSymbols .t0 bs) with
      | error e => simp [decode, hscan] at hdecode
      | ok payload =>
        simp only [decode, hscan, Option.some.injEq] at hdecode
        refine ⟨.step, s.schedule, by simp [State.withFetchWord, placeWord, hsyms, hscan], rfl, ?_⟩
        simp only [State.withFetchWord, placeWord, hsyms, hscan]
        refine step_scheduled rfl ?_
        have hfits := scanFrame_length (by simp) hscan
        rw [fetch_step_formatC rfl, ← hdecode]
        exact congrArg some (frameInstr_eq rfl hfits (bufByte_placePayload rfl hfits))

end Sys2Proof.Proofs.Codec
end

section
/-! PROOFS. The invariant of the block (10_state.md): it holds after reset and every step keeps it.
-/

namespace Sys2Proof.Proofs.Invariant

open Sys2Proof Sys2Proof.Machine Sys2Proof.Proofs.Steps Sys2Proof.Proofs.Routes
  Sys2Proof.Proofs.HandOff Sys2Proof.Proofs.Handlers Sys2Proof.Proofs.Flash
  Sys2Proof.Proofs.Session Sys2Proof.Proofs.Codec

/-! ### After reset -/

theorem timeoutTicks_pos {p : Params} (h : p.valid = true) : 1 ≤ p.timeoutTicks := by
  obtain ⟨-, -, -, -, -, -, -, -, -, -, -, hpos, -⟩ := (Params.valid_iff p).mp h
  exact hpos

theorem appBase_aligned {p : Params} (h : p.valid = true) : p.appBase.toNat % 256 = 0 := by
  obtain ⟨-, -, -, hbase, -⟩ := (Params.valid_iff p).mp h
  exact hbase

/-- The cursor at the base of the region with no page counted. -/
theorem cursor_atBase {t : State} (hvalid : t.params.valid = true)
    (haddr : t.curAddr = t.params.appBase) (hpages : t.curPages = 0)
    (hseq : t.seq ∉ [.pErase, .pWrite, .pAdvance]) : t.InvCursor where
  cur_ge := by rw [haddr]
  cur_le := by have := appBase_page_le hvalid; rw [haddr]; omega
  cur_aligned := by have := appBase_aligned hvalid; simp only [haddr, Config.halfBytes]; omega
  write_first h := absurd h (by rintro h; simp [h] at hseq)
  advance_fits h := absurd h (by rintro h; simp [h] at hseq)
  erase_first h := absurd h (by rintro h; simp [h] at hseq)
  rewind_pages _ := hpages
  pages_committed := by simp [haddr, hpages]

theorem inv_of_atReset {t : State} (h : t.AtReset) (hvalid : t.params.valid = true)
    (hwf : t.flash.wf = true) : t.Inv where
  bounds := by
    constructor <;> simp [h.idleCnt, h.idleIe, h.rxLen, h.dmaIdx, h.remain, hvalid, hwf]
  control := by
    have hremain : 1 ≤ t.remain := h.remain ▸ timeoutTicks_pos hvalid
    constructor <;> simp [h.seq, h.mode, h.fault, h.handoff, h.rxEn, h.rxDma, h.dmaEn, h.htif,
      h.tcif, h.teif, h.tif, h.idleIf, h.idleIe, h.halted, hremain, modeOf, captureSeq]
  cursor := cursor_atBase hvalid h.curAddr h.curPages (by simp [h.seq])

/-- Settles O45. -/
theorem resetMeetsInvariant : Obligations.ResetMeetsInvariant := by
  refine inv_of_atReset ?_ Config.params_valid rfl
  constructor <;> rfl

/-! ### What the control clauses say at a value of `SEQ` -/

section
variable {s : State} (hc : s.InvControl)
include hc

theorem not_armed (hpoll : s.seq ≠ .aPoll) : s.sup ≠ .armed := fun h => hpoll (hc.armed_poll h).1

theorem tif_off (hpoll : s.seq ≠ .aPoll) : s.tif = false :=
  Bool.eq_false_iff.mpr fun h => not_armed hc hpoll (hc.tif_armed h)

theorem fault_none (h : s.seq ≠ .faulted) : s.fault = none :=
  not_not.mp fun hf => h (hc.fault_iff.mp hf)

theorem handoff_none (h : s.seq ≠ .gone) : s.handoff = none :=
  not_not.mp fun hh => h (hc.gone_iff.mp hh)

/-- The channel is on exactly where capture is armed (R45). -/
theorem dmaEn_eq (h : s.seq ≠ .faulted) : s.dmaEn = captureSeq s.seq := by
  rw [Bool.eq_iff_iff]
  exact ⟨fun hch => (hc.armed_capture hch).resolve_right h, fun hcap => (hc.capture_armed hcap).1⟩

theorem rxEn_on (h : s.seq ∉ [.rJump, .bJump, .cEnter, .gone, .cRecv]) : s.rxEn = true := by
  by_contra hoff
  simp only [List.mem_cons, List.not_mem_nil, or_false, not_or] at h
  obtain ⟨hrj, hbj, hce, hg, hcr⟩ := h
  obtain h' | h' | h' | h' | ⟨h', -⟩ := hc.rx_off (Bool.eq_false_iff.mpr hoff) <;> contradiction

theorem idleIe_off (hrecv : s.seq ≠ .cRecv) (hcap : captureSeq s.seq = false)
    (hfaulted : s.seq ≠ .faulted) : s.idleIe = false := by
  refine Bool.eq_false_iff.mpr fun hie => ?_
  obtain h | h | h := hc.idle_seq hie
  · exact hrecv h
  · simp [hcap] at h
  · exact hfaulted h

end

/-! ### Moving `SEQ` -/

/-- The main context moves on to `q`, in mode `m`, with the capture as `q` has it. -/
theorem control_move {s : State} (hc : s.InvControl) {q : Seq} {m : Mode}
    (hold : s.seq ∉ [.aPoll, .gone, .faulted]) (hm : modeOf q = some m) (hpoll : q ≠ .aPoll)
    (hcap : captureSeq q = s.dmaEn)
    (hrx : s.rxEn = true ∨ q ∈ [.rJump, .bJump, .cEnter] ∨ (q = .cRecv ∧ s.msgDone = false))
    (hidle : s.idleIe = true → q = .cRecv ∨ captureSeq q = true) :
    ({ s with seq := q, mode := m } : State).InvControl := by
  simp only [List.mem_cons, List.not_mem_nil, or_false, not_or] at hold hrx
  obtain ⟨hnotPoll, hnotGone, hnotFaulted⟩ := hold
  have hgone : q ≠ .gone := by rintro rfl; cases hm
  have hfaulted : q ≠ .faulted := by rintro rfl; cases hm
  have hsup := not_armed hc hnotPoll
  refine { hc with
    mode_of_seq := fun m' h => Option.some.inj (hm.symm.trans h)
    fault_iff := by simp [fault_none hc hnotFaulted, hfaulted]
    gone_iff := by simp [handoff_none hc hnotGone, hgone]
    armed_poll := fun h => absurd h hsup
    capture_armed := fun h => ⟨hcap ▸ h, ?_⟩
    rx_off := fun h => ?_
    armed_capture := fun h => .inl (hcap.trans h)
    idle_seq := fun h => (hidle h).imp_right .inl }
  · obtain h' | (rfl | rfl | rfl) | ⟨rfl, -⟩ := hrx
    · exact h'
    all_goals cases h
  · obtain h' | (h' | h' | h') | h' := hrx
    · exact absurd (h'.symm.trans h) (by decide)
    · exact .inl h'
    · exact .inr (.inl h')
    · exact .inr (.inr (.inl h'))
    · exact .inr (.inr (.inr (.inr h')))

theorem mode_eq {s : State} (hc : s.InvControl) (hold : s.seq ∉ [.gone, .faulted]) :
    modeOf s.seq = some s.mode := by
  cases hm : modeOf s.seq with
  | some m => rw [hc.mode_of_seq m hm]
  | none => cases hseq : s.seq <;> simp [hseq, modeOf] at hm hold

/-- The main context moves on inside its mode and its phase of capture. -/
theorem control_step {s : State} (hc : s.InvControl) {q : Seq}
    (hold : s.seq ∉ [.aPoll, .gone, .faulted]) (hm : modeOf q = modeOf s.seq)
    (hpoll : q ≠ .aPoll) (hcap : captureSeq q = captureSeq s.seq)
    (hrx : s.rxEn = true ∨ q ∈ [.rJump, .bJump, .cEnter] ∨ (q = .cRecv ∧ s.msgDone = false))
    (hidle : s.idleIe = true → q = .cRecv ∨ captureSeq q = true) :
    ({ s with seq := q } : State).InvControl := by
  have hlive : s.seq ∉ [.gone, .faulted] := fun h => hold (List.mem_cons_of_mem _ h)
  have hfaulted : s.seq ≠ .faulted := fun h => hlive (by simp [h])
  exact control_move hc hold (hm.trans (mode_eq hc hlive)) hpoll
    (hcap.trans (dmaEn_eq hc hfaulted).symm) hrx hidle

/-- Where the flash engine has no operation due, the cursor clauses do not depend on `SEQ`. -/
theorem cursor_move {s : State} (hk : s.InvCursor) {q : Seq}
    (hq : q ∉ [.pErase, .pWrite, .pAdvance, .eRewind]) :
    ({ s with seq := q } : State).InvCursor := by
  simp only [List.mem_cons, List.not_mem_nil, or_false, not_or] at hq
  obtain ⟨herase, hwrite, hadvance, hrewind⟩ := hq
  exact { hk with
    write_first := fun h => absurd h hwrite
    advance_fits := fun h => absurd h hadvance
    erase_first := fun h => absurd h herase
    rewind_pages := fun h => absurd h hrewind }

/-- A model fault in a live main context past the activation poll. -/
theorem inv_fault {s : State} (hi : s.Inv) (f : ModelFault)
    (hold : s.seq ∉ [.aPoll, .gone]) (hen : s.rxEn = true) :
    ({ s with fault := some f, seq := .faulted } : State).Inv := by
  simp only [List.mem_cons, List.not_mem_nil, or_false, not_or] at hold
  obtain ⟨hpoll, hgone⟩ := hold
  obtain ⟨hb, hc, hk⟩ := hi
  have hsup := not_armed hc hpoll
  refine ⟨{ hb with }, { hc with
    mode_of_seq := nofun
    fault_iff := by simp
    gone_iff := by simp [handoff_none hc hgone]
    armed_poll := fun h => absurd h hsup
    capture_armed := nofun
    rx_off := fun h => absurd (hen.symm.trans h) (by decide)
    armed_capture := fun _ => .inr rfl
    idle_seq := fun _ => .inr (.inr rfl) }, { cursor_move hk (q := .faulted) (by decide) with }⟩

/-- A recorded hand-off, with the capture and the idle interrupt off. -/
theorem inv_gone {s : State} (hi : s.Inv) (sp pc : Word) (h : Handoff) (hfault : s.fault = none)
    (hsup : s.sup ≠ .armed) (hdma : s.dmaEn = false) (hidle : s.idleIe = false) :
    ({ s with seq := .gone, coreSp := sp, corePc := pc, handoff := some h } : State).Inv := by
  obtain ⟨hb, hc, hk⟩ := hi
  exact ⟨{ hb with }, { hc with
    mode_of_seq := nofun
    fault_iff := by simp [hfault]
    gone_iff := by simp
    armed_poll := fun h => absurd h hsup
    capture_armed := nofun
    rx_off := fun _ => .inr (.inr (.inr (.inl rfl)))
    armed_capture := fun h => absurd (hdma.symm.trans h) (by decide)
    idle_seq := fun h => absurd (hidle.symm.trans h) (by decide) },
    { cursor_move hk (q := .gone) (by decide) with }⟩

/-! ### Received bytes -/

/-- A byte that only clears `IDLECNT` and moves the framing state. -/
theorem inv_idleCnt_clear {s : State} (hi : s.Inv) (f : FrameState) :
    ({ s with idleCnt := 0, frame := f } : State).Inv :=
  ⟨{ hi.bounds with idle_le := Nat.zero_le _, idle_lt := fun _ => (by decide : 0 < 2) },
    { hi.control with }, { hi.cursor with }⟩

theorem inv_rxDmaStore {s : State} (hi : s.Inv) (b : Byte) (hch : s.dmaEn = true)
    (hidx : s.dmaIdx < 256) : (rxDmaStore b s).Inv := by
  obtain ⟨hb, hc, hk⟩ := hi
  have htcif : s.tcif = false := by
    refine Bool.eq_false_iff.mpr fun h => ?_
    have hfull : s.dmaIdx = 256 := (hc.tcif_full hch).mp h
    omega
  refine ⟨{ hb with
      idle_le := Nat.zero_le _, idle_lt := fun _ => (by decide : 0 < 2), dma_le := hidx },
    { hc with
      dma_flags := fun _ => hch
      tcif_full := fun _ => ?_ }, { hk with }⟩
  simp [rxDmaStore, tcifAfter, htcif]

theorem inv_rxPolledStore {s : State} (hi : s.Inv) (b : Byte) (hseq : s.seq = .cRecv)
    (hen : s.rxEn = true) : (rxPolledStore b s).Inv := by
  by_cases hfits : s.rxLen < 256
  · rw [rxPolledStore_fits hfits]
    exact ⟨{ hi.bounds with
      idle_le := Nat.zero_le _, idle_lt := fun _ => (by decide : 0 < 2), rx_le := hfits },
      { hi.control with }, { hi.cursor with }⟩
  · rw [rxPolledStore_overflow (by omega)]
    exact inv_fault hi .rxOverflow (by simp [hseq]) hen

theorem inv_rxActivation {s : State} (hi : s.Inv) (b : Byte) (hseq : s.seq = .aPoll)
    (hen : s.rxEn = true) : (rxActivation b s).Inv := by
  by_cases hb : b = s.params.activationByte
  · rw [rxActivation_match hb]
    obtain ⟨hb, hc, hk⟩ := hi
    have hfaulted : s.seq ≠ .faulted := by simp [hseq]
    have hdma : s.dmaEn = false := by rw [dmaEn_eq hc hfaulted, hseq]; rfl
    have hie : s.idleIe = false :=
      idleIe_off hc (by simp [hseq]) (by rw [hseq]; rfl) hfaulted
    have hsup : (if s.sup = .armed then SupState.disarmed else s.sup) ≠ .armed := by
      split
      · decide
      · assumption
    have htif : (if s.sup = .armed then false else s.tif) = false := by
      split
      · rfl
      · next h => exact Bool.eq_false_iff.mpr fun ht => h (hc.tif_armed ht)
    exact ⟨{ hb with idle_le := Nat.zero_le _, idle_lt := fun _ => (by decide : 0 < 2) },
      { hc with
        mode_of_seq := fun m h => Option.some.inj h
        fault_iff := by simp [fault_none hc hfaulted]
        gone_iff := by simp [handoff_none hc (by simp [hseq])]
        armed_poll := fun h => absurd h hsup
        tif_armed := fun h => absurd (htif.symm.trans h) (by decide)
        capture_armed := nofun
        rx_off := fun h => absurd (hen.symm.trans h) (by decide)
        armed_capture := fun h => absurd (hdma.symm.trans h) (by decide)
        idle_seq := fun h => absurd (hie.symm.trans h) (by decide) },
      { cursor_move hk (q := .cEnter) (by decide) with }⟩
  · rw [rxActivation_other hb]
    exact inv_idleCnt_clear hi s.frame

theorem inv_rx {s : State} (hi : s.Inv) (b : Byte) : (rxEffect (rxRoute s) b s).Inv := by
  obtain ⟨-, h⟩ | ⟨-, -, h⟩ | ⟨-, -, -, hch, hidx, h⟩ | ⟨-, -, -, -, h⟩ | ⟨-, hen, -, hseq, h⟩ |
    ⟨-, -, -, -, -, -, h⟩ | ⟨-, -, -, -, -, -, h⟩ | ⟨-, hen, -, hseq, -, -, h⟩ |
    ⟨-, -, -, -, -, h⟩ := rxRoute_cases s <;> rw [h]
  · exact hi
  · exact hi
  · exact inv_rxDmaStore hi b hch hidx
  · exact inv_idleCnt_clear hi s.frame
  · exact inv_rxActivation hi b hseq hen
  · exact inv_idleCnt_clear hi (nextFrame s.params s.frame b)
  · exact inv_idleCnt_clear hi (nextFrame s.params s.frame b)
  · exact inv_rxPolledStore hi b hseq hen
  · exact inv_idleCnt_clear hi s.frame

/-! ### Events and handlers -/

theorem inv_idle {s : State} (hi : s.Inv) : (effect .idle s).Inv := by
  by_cases h : s.live ∧ s.rxEn = true ∧ s.idleIe = true
  · obtain ⟨-, hen, hie⟩ := id h
    rw [effect_idle_on h]
    exact ⟨{ hi.bounds with }, { hi.control with idle_flag := fun _ => ⟨hie, hen⟩ },
      { hi.cursor with }⟩
  · rw [effect_idle_off h]
    exact hi

theorem inv_tick {s : State} (hi : s.Inv) : (effect .tick s).Inv := by
  by_cases h : s.live ∧ s.sup = .armed
  · obtain ⟨-, harmed⟩ := id h
    rw [effect_tick_on h]
    exact ⟨{ hi.bounds with }, { hi.control with tif_armed := fun _ => harmed },
      { hi.cursor with }⟩
  · rw [effect_tick_off h]
    exact hi

theorem inv_te {s : State} (hi : s.Inv) : (effect .te s).Inv := by
  by_cases h : s.live ∧ s.dmaEn = true
  · obtain ⟨-, hch⟩ := id h
    rw [effect_te_on h, drawBuffer]
    exact ⟨{ hi.bounds with },
      { hi.control with dma_flags := fun _ => hch, halted_te := fun _ => rfl }, { hi.cursor with }⟩
  · rw [effect_te_off h]
    exact hi

theorem inv_irqHt {s : State} (hi : s.Inv) (hch : s.dmaEn = true) : (effect .irqHt s).Inv :=
  ⟨{ hi.bounds with }, { hi.control with dma_flags := fun _ => hch }, { hi.cursor with }⟩

theorem inv_irqTc {s : State} (hi : s.Inv) (hch : s.dmaEn = true) : (effect .irqTc s).Inv :=
  ⟨{ hi.bounds with dma_le := Nat.zero_le _ },
    { hi.control with
      capture_armed := fun h => ⟨(hi.control.capture_armed h).1, rfl⟩
      rx_off := nofun
      dma_flags := fun _ => hch
      tcif_full := fun _ => by simp [effect]
      idle_flag := fun h => ⟨(hi.control.idle_flag h).1, rfl⟩ },
    { hi.cursor with }⟩

theorem inv_irqTe {s : State} (hi : s.Inv) (hflag : s.teif = true) : (effect .irqTe s).Inv :=
  ⟨{ hi.bounds with }, { hi.control with halted_te := fun _ => hflag }, { hi.cursor with }⟩

theorem inv_irqIdle {s : State} (hi : s.Inv) (hflag : s.idleIf = true) :
    (effect .irqIdle s).Inv := by
  obtain ⟨hb, hc, hk⟩ := hi
  obtain ⟨hie, hen⟩ := hc.idle_flag hflag
  have hlt : s.idleCnt < 2 := hb.idle_lt hie
  by_cases hlast : s.idleCnt + 1 = 2
  · rw [effect_irqIdle_completes hlast]
    exact ⟨{ hb with idle_le := (by decide : 2 ≤ 2), idle_lt := nofun },
      { hc with
        rx_off := fun h => absurd (hen.symm.trans h) (by decide)
        idle_flag := nofun
        idle_seq := nofun
        idle_waits := nofun }, { hk with }⟩
  · rw [effect_irqIdle_counts hlast]
    have hlt' : s.idleCnt + 1 < 2 := by omega
    exact ⟨{ hb with idle_le := hlt'.le, idle_lt := fun _ => hlt' },
      { hc with idle_flag := nofun }, { hk with }⟩

theorem inv_irqTim {s : State} (hi : s.Inv) (harmed : s.sup = .armed) :
    (effect .irqTim s).Inv := by
  obtain ⟨hb, hc, hk⟩ := hi
  obtain ⟨hseq, hpos⟩ := hc.armed_poll harmed
  have hremain := hb.remain_le
  by_cases hmore : 2 ≤ s.remain
  · rw [effect, timerTick_counts hmore]
    have hle : s.remain - 1 ≤ s.params.timeoutTicks := by omega
    have hpos' : 1 ≤ s.remain - 1 := by omega
    exact ⟨{ hb with remain_le := hle },
      { hc with armed_poll := fun _ => ⟨hseq, hpos'⟩, tif_armed := nofun }, { hk with }⟩
  · have hfaulted : s.seq ≠ .faulted := by simp [hseq]
    have hfault := fault_none hc hfaulted
    have hdma : s.dmaEn = false := by rw [dmaEn_eq hc hfaulted, hseq]; rfl
    have hie : s.idleIe = false := idleIe_off hc (by simp [hseq]) (by rw [hseq]; rfl) hfaulted
    have hexpired : ({ s with tif := false, remain := 0, sup := .expired } : State).Inv :=
      ⟨{ hb with remain_le := Nat.zero_le _ },
        { hc with armed_poll := nofun, tif_armed := nofun }, { hk with }⟩
    rw [effect, timerTick_expires (by omega)]
    by_cases hword : s.flash.word s.params.appBase.toNat = s.params.spSentinel
    · rw [expire_present (s := { s with tif := false, remain := 0 }) hb.params_valid hword]
      exact inv_gone hexpired _ _ _ hfault nofun hdma hie
    · rw [expire_absent (s := { s with tif := false, remain := 0 }) hb.params_valid hword]
      exact ⟨{ hexpired.bounds with }, { hexpired.control with }, { hexpired.cursor with }⟩

/-! ### The micro-steps outside a session -/

theorem inv_cEnter {s : State} (hi : s.Inv) (hseq : s.seq = .cEnter) : (enterReceive s).Inv := by
  obtain ⟨hb, hc, hk⟩ := hi
  have hie : s.idleIe = false :=
    idleIe_off hc (by simp [hseq]) (by rw [hseq]; rfl) (by simp [hseq])
  have hopen : ({ s with msgDone := false } : State).InvControl :=
    { hc with
      rx_off := fun _ => .inr (.inr (.inl hseq))
      idle_waits := fun _ => rfl }
  have hmoved := control_step hopen (q := .cRecv) (by simp [hseq]) (by simp [hseq, modeOf])
    (by decide) (by simp [hseq, captureSeq]) (.inr (.inr ⟨rfl, rfl⟩)) (fun _ => .inl rfl)
  exact ⟨{ hb with
      idle_le := Nat.zero_le _, idle_lt := fun _ => (by decide : 0 < 2), rx_le := Nat.zero_le _ },
    { hmoved with
      idle_flag := nofun
      idle_seq := fun _ => .inl rfl
      idle_waits := fun _ => rfl },
    { cursor_move hk (q := .cRecv) (by decide) with }⟩

/-- At the return of `receive_command` and at the dispatch the receiver is on and its idle interrupt
off. -/
theorem control_received {s : State} (hc : s.InvControl)
    (hseq : s.seq = .cDispatch ∨ (s.seq = .cRecv ∧ s.msgDone = true)) :
    s.rxEn = true ∧ s.idleIe = false := by
  obtain hseq | ⟨hseq, hdone⟩ := hseq
  · exact ⟨rxEn_on hc (by simp [hseq]),
      idleIe_off hc (by simp [hseq]) (by rw [hseq]; rfl) (by simp [hseq])⟩
  · constructor
    · by_contra hoff
      have h := hc.rx_off (Bool.eq_false_iff.mpr hoff)
      simp [hseq, hdone] at h
    · refine Bool.eq_false_iff.mpr fun hie => ?_
      exact absurd (hdone.symm.trans (hc.idle_waits hie)) (by decide)

theorem inv_cRecv {s : State} (hi : s.Inv) (hseq : s.seq = .cRecv) :
    (stepEffect .cRecv s).Inv := by
  rw [stepEffect]
  split
  case isFalse => exact hi
  case isTrue hdone =>
    obtain ⟨hb, hc, hk⟩ := hi
    obtain ⟨hen, hie⟩ := control_received hc (.inr ⟨hseq, hdone⟩)
    exact ⟨{ hb with }, control_step hc (by simp [hseq]) (by simp [hseq, modeOf]) (by decide)
      (by simp [hseq, captureSeq]) (.inl hen) (by simp [hie]), cursor_move hk (by decide)⟩

theorem dispatchTarget_mem (s : State) :
    dispatchTarget s ∈ [.cEnter, .rTeardown, .gClear, .bTeardown] := by
  unfold dispatchTarget
  split_ifs <;> decide

theorem inv_cDispatch {s : State} (hi : s.Inv) (hseq : s.seq = .cDispatch) :
    (stepEffect .cDispatch s).Inv := by
  obtain ⟨hb, hc, hk⟩ := hi
  obtain ⟨hen, hie⟩ := control_received hc (.inl hseq)
  have htarget := dispatchTarget_mem s
  rw [stepEffect]
  generalize dispatchTarget s = q at htarget
  have hq : modeOf q = some .commandAndControl ∧ q ≠ .aPoll ∧ captureSeq q = false ∧
      q ∉ [.pErase, .pWrite, .pAdvance, .eRewind] := by
    revert q
    decide
  obtain ⟨hmode, hpoll, hcap, hcur⟩ := hq
  exact ⟨{ hb with }, control_step hc (by simp [hseq]) (by rw [hseq, hmode]; rfl) hpoll
    (by rw [hseq, hcap]; rfl) (.inl hen) (by simp [hie]), cursor_move hk hcur⟩

/-- The teardown of every peripheral, on the way to a hand-off or a reboot. -/
theorem inv_teardown {s : State} (hi : s.Inv) {q : Seq} (hseq : s.seq ∈ [.rTeardown, .bTeardown])
    (hq : q ∈ [.rJump, .bJump]) (hrun : s.halted = false) :
    ({ teardownAll s with seq := q } : State).Inv := by
  obtain ⟨hb, hc, hk⟩ := hi
  have hold : s.seq ∉ [.aPoll, .gone, .faulted] ∧ modeOf s.seq = some .commandAndControl ∧
      captureSeq s.seq = false ∧ s.seq ≠ .cRecv ∧ s.seq ≠ .faulted ∧ s.seq ≠ .aPoll := by
    generalize s.seq = q' at hseq
    revert q'
    decide
  obtain ⟨hpast, hm, hcap, hrecv, hfaulted, hpoll⟩ := hold
  have hnew : modeOf q = some .commandAndControl ∧ q ≠ .aPoll ∧ captureSeq q = false ∧
      q ∉ [.pErase, .pWrite, .pAdvance, .eRewind] ∧ q ∈ [.rJump, .bJump, .cEnter] := by
    revert q
    decide
  obtain ⟨hm', hpoll', hcap', hcur', hoff'⟩ := hnew
  have hie := idleIe_off hc hrecv hcap hfaulted
  have hsup := not_armed hc hpoll
  have htif := tif_off hc hpoll
  have hmoved := control_step hc hpast (hm'.trans hm.symm) hpoll' (hcap'.trans hcap.symm)
    (.inr (.inl hoff')) (by simp [hie])
  rw [teardownAll_eq, if_neg hsup, if_neg hsup]
  exact ⟨{ hb with idle_lt := nofun },
    { hmoved with
      dma_together := rfl
      capture_armed := fun h => absurd (hcap'.symm.trans h) (by decide)
      rx_off := fun _ => by
        simp only [List.mem_cons, List.not_mem_nil, or_false] at hq
        exact hq.imp_right .inl
      armed_capture := nofun
      dma_flags := by simp
      tcif_full := nofun
      idle_flag := nofun
      idle_seq := nofun
      idle_waits := nofun
      halted_te := fun h => absurd (hrun.symm.trans h) (by decide) },
    { cursor_move hk hcur' with }⟩

theorem inv_rJump {s : State} (hi : s.Inv) (hseq : s.seq = .rJump) : (runAppJump s).Inv := by
  have hb := hi.bounds
  have hc := hi.control
  have hfaulted : s.seq ≠ .faulted := by simp [hseq]
  have hie := idleIe_off hc (by simp [hseq]) (by rw [hseq]; rfl) hfaulted
  have hdma : s.dmaEn = false := by rw [dmaEn_eq hc hfaulted, hseq]; rfl
  by_cases hword : s.flash.word s.params.appBase.toNat = s.params.spSentinel
  · rw [runAppJump_present hb.params_valid hword]
    exact inv_gone hi _ _ _ (fault_none hc hfaulted) (not_armed hc (by simp [hseq])) hdma hie
  · rw [runAppJump_absent hb.params_valid hword]
    have hmoved := control_step hc (q := .cEnter) (by simp [hseq]) (by simp [hseq, modeOf])
      (by decide) (by simp [hseq, captureSeq]) (.inr (.inl (by decide))) (by simp [hie])
    exact ⟨{ hb with },
      { hmoved with
        capture_armed := nofun
        rx_off := fun _ => .inr (.inr (.inl rfl))
        idle_flag := fun h =>
          absurd (hie.symm.trans (hc.idle_flag h).1) (by decide) },
      { cursor_move hi.cursor (q := .cEnter) (by decide) with }⟩

theorem inv_gClear {s : State} (hi : s.Inv) (hseq : s.seq = .gClear) :
    (stepEffect .gClear s).Inv := by
  obtain ⟨hb, hc, hk⟩ := hi
  have hie := idleIe_off hc (by simp [hseq]) (by rw [hseq]; rfl) (by simp [hseq])
  have hen := rxEn_on hc (by simp [hseq])
  have hmoved := control_step hc (q := .gArm) (by simp [hseq]) (by simp [hseq, modeOf])
    (by decide) (by simp [hseq, captureSeq]) (.inl hen) (by simp [hie])
  rw [stepEffect, clearBuffer]
  exact ⟨{ hb with }, { hmoved with }, { cursor_move hk (q := .gArm) (by decide) with }⟩

theorem inv_reboot {s : State} (hi : s.Inv) : (Machine.reboot s).Inv := by
  have h := reboot_rebooted hi.bounds.params_valid
  exact inv_of_atReset h.atReset (h.params ▸ hi.bounds.params_valid)
    (h.flash ▸ hi.bounds.flash_wf)

/-! ### The micro-steps of a session -/

theorem inv_gArm {s : State} (hi : s.Inv) (hseq : s.seq = .gArm) (hrun : s.halted = false) :
    (armSession s).Inv := by
  obtain ⟨hb, hc, hk⟩ := hi
  have hen := rxEn_on hc (by simp [hseq])
  have hsup := not_armed hc (by simp [hseq])
  have htif := tif_off hc (by simp [hseq])
  rw [armSession_eq, if_neg hsup, if_neg hsup]
  exact ⟨{ hb with
      idle_le := Nat.zero_le _, idle_lt := fun _ => (by decide : 0 < 2), dma_le := Nat.zero_le _ },
    { mode_of_seq := fun m h => Option.some.inj h
      fault_iff := by simp [fault_none hc (by simp [hseq])]
      gone_iff := by simp [handoff_none hc (by simp [hseq])]
      armed_poll := fun h => absurd h hsup
      tif_armed := fun h => absurd (htif.symm.trans h) (by decide)
      dma_together := rfl
      capture_armed := fun _ => ⟨rfl, hen⟩
      rx_off := fun h => absurd (hen.symm.trans h) (by decide)
      armed_capture := fun _ => .inl rfl
      dma_flags := fun _ => rfl
      tcif_full := fun _ => by simp
      idle_flag := nofun
      idle_seq := fun _ => .inr (.inl rfl)
      idle_waits := fun _ => rfl
      halted_te := fun h => absurd (hrun.symm.trans h) (by decide) },
    cursor_atBase hb.params_valid rfl rfl (by simp)⟩

/-- Inside the armed part of a session the main context moves on freely. -/
theorem control_capture {s : State} (hc : s.InvControl) {q : Seq}
    (hseq : captureSeq s.seq = true) (hq : captureSeq q = true) :
    ({ s with seq := q } : State).InvControl := by
  have hin : ∀ q', captureSeq q' = true →
      q' ∉ [.aPoll, .gone, .faulted] ∧ modeOf q' = some .programmerMode := by
    intro q' h
    cases q' <;> revert h <;> decide
  obtain ⟨hold, hm⟩ := hin s.seq hseq
  obtain ⟨hnew, hm'⟩ := hin q hq
  exact control_step hc hold (hm'.trans hm.symm) (fun h => hnew (by simp [h]))
    (hq.trans hseq.symm) (.inl (hc.capture_armed hseq).2) (fun _ => .inr hq)

/-- A model fault of the flash engine. -/
theorem inv_flashFault {s : State} (hi : s.Inv) (f : ModelFault) (hseq : captureSeq s.seq = true) :
    ({ s with fault := some f, seq := .faulted } : State).Inv := by
  have hpast : ∀ q, captureSeq q = true → q ∉ [.aPoll, .gone] := by
    intro q h
    cases q <;> revert h <;> decide
  exact inv_fault hi f (hpast s.seq hseq) (hi.control.capture_armed hseq).2

theorem inv_pCheck {s : State} (hi : s.Inv) (hseq : s.seq = .pCheck) : (pollCapture s).Inv := by
  have hb := hi.bounds
  have hk := hi.cursor
  have hcap : captureSeq s.seq = true := by rw [hseq]; rfl
  have hc : ∀ q, captureSeq q = true → ({ s with seq := q } : State).InvControl :=
    fun q => control_capture hi.control hcap
  cases hdone : s.msgDone with
  | true =>
    rw [pollCapture_complete hdone]
    exact ⟨{ hb with }, hc .eStop rfl, cursor_move hk (by decide)⟩
  | false =>
    cases hready : s.capstat with
    | none => rw [pollCapture_none hdone hready]; exact hi
    | firstHalfReady =>
      rw [pollCapture_firstHalfReady hdone hready]
      exact ⟨{ hb with }, { hc .pErase rfl with },
        { hk with
          write_first := nofun
          advance_fits := nofun
          erase_first := fun _ => rfl
          rewind_pages := nofun }⟩
    | secondHalfReady =>
      rw [pollCapture_secondHalfReady hdone hready]
      exact ⟨{ hb with }, { hc .pWrite rfl with },
        { hk with
          write_first := nofun
          advance_fits := nofun
          erase_first := nofun
          rewind_pages := nofun }⟩

theorem inv_pErase {s : State} (hi : s.Inv) (hseq : s.seq = .pErase) : (eraseAtCursor s).Inv := by
  have hcap : captureSeq s.seq = true := by rw [hseq]; rfl
  obtain ⟨-, h⟩ | ⟨-, -, h⟩ | ⟨hal, hin, h⟩ := eraseAtCursor_cases s <;> rw [h]
  · exact inv_flashFault hi .flashContract hcap
  · exact inv_flashFault hi .flashRange hcap
  · have hmoved := control_capture hi.control (q := .pWrite) hcap rfl
    exact ⟨{ hi.bounds with flash_wf := pageErased_wf hi.bounds.flash_wf hin }, { hmoved with },
      { hi.cursor with
        write_first := fun _ _ => ⟨(halfAligned_iff s.curAddr .first).mpr hal, hin⟩
        advance_fits := nofun
        erase_first := nofun
        rewind_pages := nofun }⟩

theorem inv_pWrite {s : State} (hi : s.Inv) (hseq : s.seq = .pWrite) : (writeAtCursor s).Inv := by
  have hcap : captureSeq s.seq = true := by rw [hseq]; rfl
  obtain ⟨-, h⟩ | ⟨-, -, h⟩ | ⟨hal, hin, h⟩ := writeAtCursor_cases s <;> rw [h]
  · exact inv_flashFault hi .flashContract hcap
  · exact inv_flashFault hi .flashRange hcap
  · have hmoved := control_capture hi.control (q := .pAdvance) hcap rfl
    exact ⟨{ hi.bounds with flash_wf := halfWritten_wf hi.bounds.flash_wf s.latch hin },
      { hmoved with },
      { hi.cursor with
        write_first := nofun
        advance_fits := fun _ => ⟨(halfAligned_iff s.curAddr s.latch).mpr hal, hin⟩
        erase_first := nofun
        rewind_pages := nofun }⟩

/-- Past the second half of a page, one page more lies behind the cursor. -/
theorem page_behind {pages base cur : Nat} (h : pages * 256 + base ≤ cur) (hbase : base % 256 = 0)
    (hcur : cur % 256 = 128) : (pages + 1) * 256 + base ≤ cur + 128 := by
  obtain ⟨b, rfl⟩ : ∃ b, base = 256 * b := ⟨base / 256, by omega⟩
  obtain ⟨c, rfl⟩ : ∃ c, cur = 256 * c + 128 := ⟨cur / 256, by omega⟩
  have hle : pages + b ≤ c := by omega
  linarith

/-- The advance stays inside the region, and a counted page lies wholly behind the cursor. -/
theorem inv_pAdvance {s : State} (hi : s.Inv) (hseq : s.seq = .pAdvance) :
    (advanceCursor s).Inv := by
  obtain ⟨hb, hc, hk⟩ := hi
  obtain ⟨hal, hin⟩ := hk.advance_fits hseq
  have hnext : (s.curAddr + 128#32).toNat = s.curAddr.toNat + 128 := toNat_add_half hin
  have hmoved := control_capture hc (q := .pClear) (by rw [hseq]; rfl) rfl
  have hge := hk.cur_ge
  have haligned := hk.cur_aligned
  have hpages := hk.pages_committed
  have hbase := appBase_aligned hb.params_valid
  rw [halfAligned_iff] at hal
  rw [inAppRegion_iff] at hin
  simp only [Config.halfBytes, Config.pageBytes] at hin haligned hpages
  refine ⟨{ hb with }, { hmoved with }, ?_⟩
  exact {
    cur_ge := (by omega : s.params.appBase.toNat ≤ (s.curAddr + 128#32).toNat)
    cur_le := (by omega : (s.curAddr + 128#32).toNat ≤ s.params.appLimit.toNat)
    cur_aligned := (by omega : (s.curAddr + 128#32).toNat % 128 = 0)
    write_first := nofun
    advance_fits := nofun
    erase_first := nofun
    rewind_pages := nofun
    pages_committed := by
      have hcount : (if s.latch = .second then s.curPages + 1 else s.curPages) * 256 +
          s.params.appBase.toNat ≤ (s.curAddr + 128#32).toNat := by
        split
        · next hlatch =>
          rw [hnext]
          rw [hlatch] at hal
          exact page_behind hpages hbase hal
        · omega
      exact hcount }

theorem inv_pClear {s : State} (hi : s.Inv) (hseq : s.seq = .pClear) :
    (stepEffect .pClear s).Inv := by
  have hmoved := control_capture hi.control (q := .pCheck) (by rw [hseq]; rfl) rfl
  exact ⟨{ hi.bounds with }, { hmoved with },
    { cursor_move hi.cursor (q := .pCheck) (by decide) with }⟩

theorem inv_eStop {s : State} (hi : s.Inv) (hseq : s.seq = .eStop) (hrun : s.halted = false) :
    (stepEffect .eStop s).Inv := by
  obtain ⟨hb, hc, hk⟩ := hi
  have hen := rxEn_on hc (by simp [hseq])
  have hsup := not_armed hc (by simp [hseq])
  have hmode := mode_eq hc (by simp [hseq])
  rw [hseq] at hmode
  exact ⟨{ hb with idle_lt := nofun },
    { hc with
      mode_of_seq := fun m h => Option.some.inj (hmode.symm.trans h)
      fault_iff := by simp [fault_none hc (by simp [hseq]), stepEffect]
      gone_iff := by simp [handoff_none hc (by simp [hseq]), stepEffect]
      armed_poll := fun h => absurd h hsup
      dma_together := rfl
      capture_armed := nofun
      rx_off := fun h => absurd (hen.symm.trans h) (by decide)
      armed_capture := nofun
      dma_flags := by simp [stepEffect]
      tcif_full := nofun
      idle_flag := nofun
      idle_seq := nofun
      idle_waits := nofun
      halted_te := fun h => absurd (hrun.symm.trans h) (by decide) },
    { cursor_move hk (q := .eReport) (by decide) with }⟩

/-- Past the stop of the capture the session moves on with the receiver on and its idle interrupt
off. -/
theorem control_closing {s : State} (hc : s.InvControl) {q : Seq}
    (hseq : s.seq ∈ [.eReport, .eRewind, .eClear]) (hq : q ∈ [.eRewind, .eClear, .eFallback]) :
    s.rxEn = true ∧ s.dmaEn = false ∧ s.idleIe = false ∧
    ({ s with seq := q } : State).InvControl := by
  have hold : s.seq ∉ [.aPoll, .gone, .faulted] ∧ modeOf s.seq = some .programmerMode ∧
      captureSeq s.seq = false ∧ s.seq ≠ .cRecv ∧ s.seq ≠ .faulted ∧
      s.seq ∉ [.rJump, .bJump, .cEnter, .gone, .cRecv] := by
    generalize s.seq = q' at hseq
    revert q'
    decide
  obtain ⟨hpast, hm, hcap, hrecv, hfaulted, hon⟩ := hold
  have hnew : modeOf q = some .programmerMode ∧ q ≠ .aPoll ∧ captureSeq q = false := by
    revert q
    decide
  obtain ⟨hm', hpoll', hcap'⟩ := hnew
  have hie := idleIe_off hc hrecv hcap hfaulted
  have hen := rxEn_on hc hon
  exact ⟨hen, (dmaEn_eq hc hfaulted).trans hcap, hie,
    control_step hc hpast (hm'.trans hm.symm) hpoll' (hcap'.trans hcap.symm) (.inl hen)
      (by simp [hie])⟩

theorem inv_eReport {s : State} (hi : s.Inv) (hseq : s.seq = .eReport) :
    (stepEffect .eReport s).Inv := by
  obtain ⟨-, -, -, hmoved⟩ := control_closing hi.control (q := .eRewind) (by simp [hseq])
    (by decide)
  exact ⟨{ hi.bounds with }, { hmoved with },
    { hi.cursor with
      write_first := nofun
      advance_fits := nofun
      erase_first := nofun
      rewind_pages := fun _ => rfl
      pages_committed := by simpa [stepEffect] using hi.cursor.cur_ge }⟩

theorem inv_eRewind {s : State} (hi : s.Inv) (hseq : s.seq = .eRewind) :
    (stepEffect .eRewind s).Inv := by
  obtain ⟨-, -, -, hmoved⟩ := control_closing hi.control (q := .eClear) (by simp [hseq]) (by decide)
  exact ⟨{ hi.bounds with }, { hmoved with },
    cursor_atBase hi.bounds.params_valid rfl (hi.cursor.rewind_pages hseq)
      (by simp [stepEffect])⟩

theorem inv_eClear {s : State} (hi : s.Inv) (hseq : s.seq = .eClear) :
    (stepEffect .eClear s).Inv := by
  obtain ⟨hen, hdma, hie, hmoved⟩ :=
    control_closing hi.control (q := .eFallback) (by simp [hseq]) (by decide)
  rw [stepEffect, clearBuffer]
  exact ⟨{ hi.bounds with
      idle_le := Nat.zero_le _, idle_lt := fun _ => (by decide : 0 < 2), dma_le := Nat.zero_le _ },
    { hmoved with
      rx_off := fun h => absurd (hen.symm.trans h) (by decide)
      tcif_full := fun h => absurd (hdma.symm.trans h) (by decide)
      idle_waits := fun _ => rfl },
    { cursor_move hi.cursor (q := .eFallback) (by decide) with }⟩

theorem inv_eFallback {s : State} (hi : s.Inv) (hseq : s.seq = .eFallback) :
    (stepEffect .eFallback s).Inv := by
  obtain ⟨hb, hc, hk⟩ := hi
  have hfaulted : s.seq ≠ .faulted := by simp [hseq]
  have hie := idleIe_off hc (by simp [hseq]) (by rw [hseq]; rfl) hfaulted
  have hdma : s.dmaEn = false := by rw [dmaEn_eq hc hfaulted, hseq]; rfl
  exact ⟨{ hb with }, control_move hc (q := .cEnter) (m := .commandAndControl) (by simp [hseq]) rfl
    (by decide) hdma.symm (.inr (.inl (by decide))) (by simp [hie]),
    { cursor_move hk (q := .cEnter) (by decide) with }⟩

/-! ### Every step -/

/-- The micro-step at `SEQ` keeps the invariant. -/
theorem inv_stepEffect {s : State} (hi : s.Inv) (hrun : s.halted = false) :
    (stepEffect s.seq s).Inv := by
  cases hseq : s.seq with
  | aPoll => exact hi
  | cEnter => exact inv_cEnter hi hseq
  | cRecv => exact inv_cRecv hi hseq
  | cDispatch => exact inv_cDispatch hi hseq
  | rTeardown => exact inv_teardown hi (by simp [hseq]) (by decide) hrun
  | rJump => exact inv_rJump hi hseq
  | gClear => exact inv_gClear hi hseq
  | gArm => exact inv_gArm hi hseq hrun
  | bTeardown => exact inv_teardown hi (by simp [hseq]) (by decide) hrun
  | bJump => exact inv_reboot hi
  | pCheck => exact inv_pCheck hi hseq
  | pErase => exact inv_pErase hi hseq
  | pWrite => exact inv_pWrite hi hseq
  | pAdvance => exact inv_pAdvance hi hseq
  | pClear => exact inv_pClear hi hseq
  | eStop => exact inv_eStop hi hseq hrun
  | eReport => exact inv_eReport hi hseq
  | eRewind => exact inv_eRewind hi hseq
  | eClear => exact inv_eClear hi hseq
  | eFallback => exact inv_eFallback hi hseq
  | gone => exact hi
  | faulted => exact hi

/-- Every enabled step of a run keeps the invariant. -/
theorem inv_effect {s : State} (hi : s.Inv) {e : RunStep} (hen : enabled e s = true) :
    (effect e s).Inv := by
  cases e with
  | reset =>
    exact inv_of_atReset (resetBlock_atReset s) hi.bounds.params_valid hi.bounds.flash_wf
  | rx b => exact inv_rx hi b
  | idle => exact inv_idle hi
  | tick => exact inv_tick hi
  | te => exact inv_te hi
  | irqHt =>
    obtain ⟨-, hch, -⟩ := (irqHtEnabled_iff s).mp hen
    exact inv_irqHt hi hch
  | irqTc =>
    obtain ⟨-, hch, -⟩ := (irqTcEnabled_iff s).mp hen
    exact inv_irqTc hi hch
  | irqTe =>
    obtain ⟨hflag, -⟩ := (irqTeEnabled_iff s).mp hen
    exact inv_irqTe hi hflag
  | irqIdle =>
    obtain ⟨hflag, -⟩ := (irqIdleEnabled_iff s).mp hen
    exact inv_irqIdle hi hflag
  | irqTim =>
    obtain ⟨-, harmed, -⟩ := (irqTimEnabled_iff s).mp hen
    exact inv_irqTim hi harmed
  | step =>
    have hlive : s.live := (frozen_eq_false s).mp (by simpa [enabled] using hen)
    exact inv_stepEffect hi hlive.1

/-- The invariant does not look at the schedule (log entry 1). -/
theorem inv_withSchedule {s : State} (hi : s.Inv) (rest : List RunStep) :
    ({ s with schedule := rest } : State).Inv :=
  ⟨{ hi.bounds with }, { hi.control with }, { hi.cursor with }⟩

/-- Settles O46. -/
theorem stepKeepsInvariant : Obligations.StepKeepsInvariant := by
  intro s t hi hstep
  obtain ⟨e, rest, hen, rfl⟩ | rfl := step_cases hstep
  · exact inv_effect (inv_withSchedule hi rest) hen
  · exact hi

end Sys2Proof.Proofs.Invariant
end

section
/-! PROOFS. Safety of every step: terminal states, the writers of flash, the modes, the one producer
of the buffer; and the run of a schedule held in the state. -/

namespace Sys2Proof.Proofs.Safety

open Sys2Proof Sys2Proof.Machine Sys2Proof.Proofs.Steps Sys2Proof.Proofs.Routes
  Sys2Proof.Proofs.HandOff Sys2Proof.Proofs.Handlers Sys2Proof.Proofs.Flash
  Sys2Proof.Proofs.Session Sys2Proof.Proofs.Codec Sys2Proof.Proofs.Invariant

/-! ### Terminal states (R37, R193, R222, R256) -/

theorem frozen_of_not_live {s : State} (h : ¬ s.live) : s.frozen = true := by
  by_contra hfrozen
  exact h ((frozen_eq_false s).mp (Bool.eq_false_iff.mpr hfrozen))

/-- In a terminal state the events have no effect, and no `STEP` or handler is enabled. -/
theorem effect_terminal {s : State} (hdead : ¬ s.live) {e : RunStep} (he : e ≠ .reset)
    (hen : enabled e s = true) :
    effect e s = s ∧ e ∉ [.step, .irqHt, .irqTc, .irqTe, .irqIdle, .irqTim] := by
  have hfrozen := frozen_of_not_live hdead
  cases e with
  | reset => exact absurd rfl he
  | rx b => exact ⟨by rw [effect, rxRoute_frozen hfrozen, rxEffect], by simp⟩
  | idle => exact ⟨effect_idle_off fun h => hdead h.1, by simp⟩
  | tick => exact ⟨effect_tick_off fun h => hdead h.1, by simp⟩
  | te => exact ⟨effect_te_off fun h => hdead h.1, by simp⟩
  | step => simp [enabled, hfrozen] at hen
  | irqHt => obtain ⟨-, -, h⟩ := (irqHtEnabled_iff s).mp hen; exact absurd h hdead
  | irqTc => obtain ⟨-, -, h⟩ := (irqTcEnabled_iff s).mp hen; exact absurd h hdead
  | irqTe => obtain ⟨-, -, h⟩ := (irqTeEnabled_iff s).mp hen; exact absurd h hdead
  | irqIdle => obtain ⟨-, -, h⟩ := (irqIdleEnabled_iff s).mp hen; exact absurd h hdead
  | irqTim => obtain ⟨-, -, h⟩ := (irqTimEnabled_iff s).mp hen; exact absurd h hdead

/-- Settles O47. -/
theorem terminalStatesFrozenUntilReset : Obligations.TerminalStatesFrozenUntilReset := by
  intro s t e rest hdead hsch hstep
  obtain ⟨hen, rfl⟩ := (step_scheduled_iff hsch).mp hstep
  refine ⟨fun he => effect_terminal (s := { s with schedule := rest }) hdead he hen, ?_⟩
  rintro rfl
  exact ⟨⟨rfl, nofun, nofun⟩, resetBlock_atReset _⟩

/-! ### The writers of flash (R72, R79, R157, R160) -/

theorem rxEffect_flash (r : RxRoute) (b : Byte) (s : State) : (rxEffect r b s).flash = s.flash := by
  cases r with
  | activation =>
    rw [rxEffect, rxActivation]
    split <;> simp
  | frameActive =>
    rw [rxEffect, rxPolledStore]
    split <;> simp
  | _ => rfl

theorem runAppJump_flash (s : State) : (runAppJump s).flash = s.flash := by
  obtain ⟨hctx, -⟩ := tryJump_context s.params.appBase s
  have h := hctx.flash
  unfold runAppJump
  split <;> simpa [*] using h

theorem pollCapture_flash (s : State) : (pollCapture s).flash = s.flash := by
  unfold pollCapture
  split
  · rfl
  · split <;> rfl

/-- Every micro-step but the erase and the burst leaves flash. -/
theorem stepEffect_flash {q : Seq} (herase : q ≠ .pErase) (hwrite : q ≠ .pWrite) (s : State) :
    (stepEffect q s).flash = s.flash := by
  cases q with
  | pErase => exact absurd rfl herase
  | pWrite => exact absurd rfl hwrite
  | cRecv => rw [stepEffect]; split <;> rfl
  | rTeardown | bTeardown | gArm => simp [stepEffect]
  | rJump => exact runAppJump_flash s
  | bJump => exact reboot_flash s
  | pCheck => exact pollCapture_flash s
  | _ => rfl

/-- Every step of a run but the `STEP` at `P_ERASE` or `P_WRITE` leaves flash. -/
theorem effect_flash {e : RunStep} {s : State}
    (h : ¬ (e = .step ∧ (s.seq = .pErase ∨ s.seq = .pWrite))) : (effect e s).flash = s.flash := by
  cases e with
  | rx b => exact rxEffect_flash (rxRoute s) b s
  | idle | tick | te => rw [effect]; split <;> simp
  | irqTim => obtain ⟨hctx, -⟩ := timerTick_context s; exact hctx.flash
  | step =>
    refine stepEffect_flash (fun hq => h ⟨rfl, .inl hq⟩) (fun hq => h ⟨rfl, .inr hq⟩) s
  | _ => rfl

/-- The erase at the cursor changes bytes of the region only. -/
theorem read_eraseAtCursor_outside {s : State} (hwf : s.flash.wf = true) {a : Nat}
    (ha : ¬ (s.params.appBase.toNat ≤ a ∧ a < s.params.appLimit.toNat)) :
    (eraseAtCursor s).flash.read a = s.flash.read a := by
  obtain ⟨-, h⟩ | ⟨-, -, h⟩ | ⟨-, hin, h⟩ := eraseAtCursor_cases s <;> rw [h]
  rw [inAppRegion_iff] at hin
  simp only [Config.pageBytes] at hin
  rw [read_pageErased hwf ((inAppRegion_iff _ _ _).mpr hin), if_neg (by omega)]

/-- The burst at the cursor changes bytes of the region only. -/
theorem read_writeAtCursor_outside {s : State} (hwf : s.flash.wf = true) {a : Nat}
    (ha : ¬ (s.params.appBase.toNat ≤ a ∧ a < s.params.appLimit.toNat)) :
    (writeAtCursor s).flash.read a = s.flash.read a := by
  obtain ⟨-, h⟩ | ⟨-, -, h⟩ | ⟨-, hin, h⟩ := writeAtCursor_cases s <;> rw [h]
  rw [inAppRegion_iff] at hin
  simp only [Config.halfBytes] at hin
  rw [read_halfWritten hwf s.latch ((inAppRegion_iff _ _ _).mpr hin), if_neg (by omega)]

/-- A step that changes a byte of flash is the erase or the burst at the cursor, and the byte lies
in the region. -/
theorem effect_flash_changed {e : RunStep} {s : State} (hi : s.Inv) (hen : enabled e s = true)
    {a : Nat} (h : (effect e s).flash.read a ≠ s.flash.read a) :
    (s.seq = .pErase ∨ s.seq = .pWrite) ∧ s.halted = false ∧
    s.params.appBase.toNat ≤ a ∧ a < s.params.appLimit.toNat := by
  have hengine : e = .step ∧ (s.seq = .pErase ∨ s.seq = .pWrite) := by
    by_contra hother
    exact h (by rw [effect_flash hother])
  obtain ⟨rfl, hseq⟩ := hengine
  have hlive : s.live := (frozen_eq_false s).mp (by simpa [enabled] using hen)
  refine ⟨hseq, hlive.1, ?_⟩
  by_contra ha
  obtain hseq | hseq := hseq <;> rw [effect, hseq, stepEffect] at h
  · exact h (read_eraseAtCursor_outside hi.bounds.flash_wf ha)
  · exact h (read_writeAtCursor_outside hi.bounds.flash_wf ha)

/-- Settles O48: the invariant gives the mode, and valid parameters keep the bootloader's code out
of the region. -/
theorem flashEngineIsSoleMutator : Obligations.FlashEngineIsSoleMutator := by
  intro s t hi hstep a hchanged
  obtain ⟨e, rest, hen, rfl⟩ | rfl := step_cases hstep
  case inr => exact absurd rfl hchanged
  obtain ⟨hseq, hrun, hge, hlt⟩ := effect_flash_changed (inv_withSchedule hi rest) hen hchanged
  have hmode : s.mode = .programmerMode :=
    hi.control.mode_of_seq _ (by obtain h | h := hseq <;> simp_all [modeOf])
  exact ⟨hseq, hmode, hrun, hge, hlt,
    fun r hr => Params.bootCode_outside hi.bounds.params_valid hr hge hlt⟩

/-! ### The modes (R200, R202) -/

theorem runAppJump_mode (s : State) : (runAppJump s).mode = s.mode := by
  obtain ⟨hctx, -⟩ := tryJump_context s.params.appBase s
  have h := hctx.mode
  unfold runAppJump
  split <;> simpa [*] using h

theorem pollCapture_mode (s : State) : (pollCapture s).mode = s.mode := by
  unfold pollCapture
  split
  · rfl
  · split <;> rfl

theorem eraseAtCursor_mode (s : State) : (eraseAtCursor s).mode = s.mode := by
  obtain ⟨-, h⟩ | ⟨-, -, h⟩ | ⟨-, -, h⟩ := eraseAtCursor_cases s <;> rw [h]

theorem writeAtCursor_mode (s : State) : (writeAtCursor s).mode = s.mode := by
  obtain ⟨-, h⟩ | ⟨-, -, h⟩ | ⟨-, -, h⟩ := writeAtCursor_cases s <;> rw [h]

/-- Every micro-step but three leaves the mode. -/
theorem stepEffect_mode {q : Seq} (h : q ∉ [.gArm, .bJump, .eFallback]) (s : State) :
    (stepEffect q s).mode = s.mode := by
  cases q with
  | gArm | bJump | eFallback => simp at h
  | cRecv => rw [stepEffect]; split <;> rfl
  | rTeardown | bTeardown => simp [stepEffect]
  | rJump => exact runAppJump_mode s
  | pCheck => exact pollCapture_mode s
  | pErase => exact eraseAtCursor_mode s
  | pWrite => exact writeAtCursor_mode s
  | _ => rfl

/-- A received byte changes the mode only as the activation byte at `A_POLL`. -/
theorem rx_mode {b : Byte} {s : State} (h : (effect (.rx b) s).mode ≠ s.mode) :
    s.seq = .aPoll ∧ b = s.params.activationByte ∧
    (effect (.rx b) s).mode = .commandAndControl := by
  rw [effect] at h ⊢
  cases hr : rxRoute s <;> rw [hr, rxEffect] at h
  case activation =>
    have hseq : s.seq = .aPoll := by
      have hcases := rxRoute_cases s
      simp only [hr, reduceCtorEq, and_false, or_false, false_or] at hcases
      obtain ⟨-, -, -, hseq, -⟩ := hcases
      exact hseq
    by_cases hb : b = s.params.activationByte
    · exact ⟨hseq, hb, by rw [rxEffect, rxActivation_match hb]⟩
    · exact absurd (by rw [rxActivation_other hb]) h
  case frameActive =>
    refine absurd ?_ h
    rw [rxPolledStore]
    split <;> simp
  all_goals exact absurd rfl h

/-- Settles O51: of the steps that may change the mode, each is one of the listed transitions, since
the invariant fixes the mode at the step's value of `SEQ`. -/
theorem modeTransitions : Obligations.ModeTransitions := by
  intro s t e hi hrun hchanged
  obtain ⟨hen, rfl⟩ := runSteps_singleton_iff.mp hrun
  have hmode := hi.control.mode_of_seq
  cases e with
  | reset => exact .inr (.inr (.inr ⟨rfl, .inl rfl⟩))
  | rx b =>
    obtain ⟨hseq, rfl, hnew⟩ := rx_mode hchanged
    exact .inl ⟨hmode _ (by rw [hseq]; rfl), hnew, rfl⟩
  | idle | tick | te =>
    refine absurd ?_ hchanged
    rw [effect]
    split <;> simp
  | irqHt | irqTc | irqTe | irqIdle => exact absurd rfl hchanged
  | irqTim =>
    obtain ⟨hctx, -⟩ := timerTick_context s
    exact absurd hctx.mode hchanged
  | step =>
    have hq : s.seq ∈ [.gArm, .bJump, .eFallback] := by
      by_contra h
      exact hchanged (stepEffect_mode h s)
    simp only [List.mem_cons, List.not_mem_nil, or_false] at hq
    rw [effect] at hchanged ⊢
    obtain hseq | hseq | hseq := hq <;> rw [hseq] at hchanged ⊢
    · exact .inr (.inl ⟨hmode _ (by rw [hseq]; rfl), by simp [stepEffect], rfl, rfl⟩)
    · have hreset := (reboot_rebooted hi.bounds.params_valid).atReset
      exact .inr (.inr (.inr ⟨hreset.mode, .inr ⟨rfl, rfl⟩⟩))
    · exact .inr (.inr (.inl ⟨hmode _ (by rw [hseq]; rfl), rfl, rfl, rfl⟩))

/-! ### The one producer of the buffer (R45) -/

/-- A received byte changes the buffer only on the two routes that store it. -/
theorem rx_buf {b : Byte} {s : State} (h : (rxEffect (rxRoute s) b s).buf ≠ s.buf) :
    rxRoute s = .dmaStore ∨ rxRoute s = .frameActive := by
  cases hr : rxRoute s <;> rw [hr, rxEffect] at h
  case dmaStore => exact .inl rfl
  case frameActive => exact .inr rfl
  case activation =>
    refine absurd ?_ h
    rw [rxActivation]
    split <;> simp
  all_goals exact absurd rfl h

/-- Settles O52. -/
theorem oneProducerStoresIntoBuffer : Obligations.OneProducerStoresIntoBuffer := by
  intro s t b hi hexec hchanged
  cases hexec
  have hc := hi.control
  obtain hr | hr := rx_buf hchanged
  · obtain ⟨hfrozen, hdma, hch⟩ : s.frozen = false ∧ s.rxDma = true ∧ s.dmaEn = true := by
      have h := rxRoute_cases s
      simp [hr] at h
      tauto
    obtain ⟨-, -, hfaulted⟩ := (frozen_eq_false s).mp hfrozen
    have hcap := (dmaEn_eq hc hfaulted).symm.trans hch
    refine .inl ⟨hdma, hch, fun hseq => ?_, hcap⟩
    rw [hseq] at hcap
    cases hcap
  · obtain ⟨hdma, hseq⟩ : s.rxDma = false ∧ s.seq = .cRecv := by
      have h := rxRoute_cases s
      simp [hr] at h
      tauto
    exact .inr ⟨hdma, hc.dma_together.symm.trans hdma, hseq, hc.mode_of_seq _ (by rw [hseq]; rfl)⟩

/-! ### The run of a schedule held in the state (log entry 1) -/

/-- A state with another schedule. -/
def withSchedule (l : List RunStep) (s : State) : State := { s with schedule := l }

theorem afterRead_withSchedule (a : Nat) (l : List RunStep) (s : State) :
    afterRead a (withSchedule l s) = withSchedule l (afterRead a s) := by
  unfold afterRead
  split <;> rfl

theorem tryJump_withSchedule (base : Addr) (l : List RunStep) (s : State) :
    tryJump base (withSchedule l s) = ((tryJump base s).1, withSchedule l (tryJump base s).2) := by
  by_cases h : memRead4 s base.toNat = s.params.spSentinel
  · have h' : memRead4 (withSchedule l s) base.toNat = (withSchedule l s).params.spSentinel := h
    rw [tryJump, tryJump, if_neg (not_not.mpr h), if_neg (not_not.mpr h'), afterRead_withSchedule,
      afterRead_withSchedule]
    rfl
  · have h' : memRead4 (withSchedule l s) base.toNat ≠ (withSchedule l s).params.spSentinel := h
    rw [tryJump, tryJump, if_pos h, if_pos h', afterRead_withSchedule]
    rfl

theorem expire_withSchedule (l : List RunStep) (s : State) :
    expire (withSchedule l s) = withSchedule l (expire s) := by
  have hjump := tryJump_withSchedule s.params.appBase l { s with sup := .expired, tif := false }
  unfold expire
  have hexpired : ({ withSchedule l s with sup := .expired, tif := false } : State) =
    withSchedule l { s with sup := .expired, tif := false } := rfl
  rw [hexpired, show (withSchedule l s).params.appBase = s.params.appBase from rfl, hjump]
  cases tryJump s.params.appBase { s with sup := .expired, tif := false } with
  | mk r t => cases r <;> rfl

theorem runAppJump_withSchedule (l : List RunStep) (s : State) :
    runAppJump (withSchedule l s) = withSchedule l (runAppJump s) := by
  have hjump := tryJump_withSchedule s.params.appBase l s
  unfold runAppJump
  rw [show (withSchedule l s).params.appBase = s.params.appBase from rfl, hjump]
  cases tryJump s.params.appBase s with
  | mk r t => cases r <;> rfl

theorem timerTick_withSchedule (l : List RunStep) (s : State) :
    timerTick (withSchedule l s) = withSchedule l (timerTick s) := by
  rcases Nat.lt_or_ge s.remain 2 with h | h
  · have h' : (withSchedule l s).remain ≤ 1 := Nat.le_of_lt_succ h
    rw [timerTick_expires (Nat.le_of_lt_succ h), timerTick_expires h']
    exact expire_withSchedule l { s with tif := false, remain := 0 }
  · have h' : 2 ≤ (withSchedule l s).remain := h
    rw [timerTick_counts h, timerTick_counts h']
    rfl

theorem eraseAtCursor_withSchedule (l : List RunStep) (s : State) :
    eraseAtCursor (withSchedule l s) = withSchedule l (eraseAtCursor s) := by
  unfold eraseAtCursor
  by_cases hal : s.curAddr.toNat % Config.pageBytes = 0
  · cases hin : inAppRegion s.params s.curAddr.toNat Config.pageBytes <;>
      simp [withSchedule, flashErasePage, orRaise, hal, hin]
  · simp [withSchedule, orRaise, hal]

theorem writeAtCursor_withSchedule (l : List RunStep) (s : State) :
    writeAtCursor (withSchedule l s) = withSchedule l (writeAtCursor s) := by
  unfold writeAtCursor
  cases hal : halfAligned s.curAddr s.latch with
  | true =>
    have hhalf := halfAligned_half hal
    cases hin : inAppRegion s.params s.curAddr.toNat Config.halfBytes <;>
      simp [withSchedule, flashWriteHalf, halfBytesOf, orRaise, hal, hhalf, hin]
  | false => simp [withSchedule, orRaise, hal]

theorem pollCapture_withSchedule (l : List RunStep) (s : State) :
    pollCapture (withSchedule l s) = withSchedule l (pollCapture s) := by
  unfold pollCapture
  cases hdone : s.msgDone with
  | true => simp [withSchedule, hdone]
  | false => cases hready : s.capstat <;> simp [withSchedule, hdone, hready]

theorem rxEffect_withSchedule (r : RxRoute) (b : Byte) (l : List RunStep) (s : State) :
    rxEffect r b (withSchedule l s) = withSchedule l (rxEffect r b s) := by
  cases r with
  | activation =>
    by_cases hb : b = s.params.activationByte
    · have hb' : b = (withSchedule l s).params.activationByte := hb
      rw [rxEffect, rxEffect, rxActivation_match hb, rxActivation_match hb']
      rfl
    · have hb' : b ≠ (withSchedule l s).params.activationByte := hb
      rw [rxEffect, rxEffect, rxActivation_other hb, rxActivation_other hb']
      rfl
  | frameActive =>
    rcases Nat.lt_or_ge s.rxLen 256 with h | h
    · have h' : (withSchedule l s).rxLen < 256 := h
      rw [rxEffect, rxEffect, rxPolledStore_fits h, rxPolledStore_fits h']
      rfl
    · have h' : 256 ≤ (withSchedule l s).rxLen := h
      rw [rxEffect, rxEffect, rxPolledStore_overflow h, rxPolledStore_overflow h']
      rfl
  | _ => rfl

theorem stepEffect_withSchedule (q : Seq) (l : List RunStep) (s : State) :
    stepEffect q (withSchedule l s) = withSchedule l (stepEffect q s) := by
  cases q with
  | cRecv => cases hdone : s.msgDone <;> simp [stepEffect, withSchedule, hdone]
  | rTeardown | bTeardown => rw [stepEffect, stepEffect, teardownAll_eq, teardownAll_eq]; rfl
  | rJump => exact runAppJump_withSchedule l s
  | gArm => rw [stepEffect, stepEffect, armSession_eq, armSession_eq]; rfl
  | bJump =>
    rw [stepEffect, stepEffect, Machine.reboot, Machine.reboot, afterRead_withSchedule,
      afterRead_withSchedule]
    rfl
  | pCheck => exact pollCapture_withSchedule l s
  | pErase => exact eraseAtCursor_withSchedule l s
  | pWrite => exact writeAtCursor_withSchedule l s
  | _ => rfl

/-- No step of a run reads or writes the schedule. -/
theorem effect_withSchedule (e : RunStep) (l : List RunStep) (s : State) :
    effect e (withSchedule l s) = withSchedule l (effect e s) := by
  cases e with
  | rx b => exact rxEffect_withSchedule (rxRoute s) b l s
  | idle =>
    by_cases h : s.live ∧ s.rxEn = true ∧ s.idleIe = true
    · rw [effect_idle_on h, effect_idle_on (s := withSchedule l s) h]; rfl
    · rw [effect_idle_off h, effect_idle_off (s := withSchedule l s) h]
  | tick =>
    by_cases h : s.live ∧ s.sup = .armed
    · rw [effect_tick_on h, effect_tick_on (s := withSchedule l s) h]; rfl
    · rw [effect_tick_off h, effect_tick_off (s := withSchedule l s) h]
  | te =>
    by_cases h : s.live ∧ s.dmaEn = true
    · rw [effect_te_on h, effect_te_on (s := withSchedule l s) h]; rfl
    · rw [effect_te_off h, effect_te_off (s := withSchedule l s) h]
  | irqTim => exact timerTick_withSchedule l s
  | step => exact stepEffect_withSchedule s.seq l s
  | _ => rfl

theorem enabled_withSchedule (e : RunStep) (l : List RunStep) (s : State) :
    enabled e (withSchedule l s) = enabled e s := by
  cases e <;> rfl

theorem runSteps_schedule {sch : List RunStep} {s t : State} (h : runSteps sch s = .next t) :
    t.schedule = s.schedule := by
  induction sch generalizing s with
  | nil => cases h; rfl
  | cons e rest ih =>
    obtain ⟨-, hrest⟩ := runSteps_cons_iff.mp h
    have hkept : effect e s = withSchedule s.schedule (effect e s) :=
      effect_withSchedule e s.schedule s
    rw [ih hrest, hkept]
    rfl

/-- One step of the machine on a schedule takes its head and leaves its tail. -/
theorem step_withSchedule {e : RunStep} {s : State} (rest : List RunStep)
    (hen : enabled e s = true) :
    step (withSchedule (e :: rest) s) = .next (withSchedule rest (effect e s)) :=
  (step_scheduled_iff (s := withSchedule (e :: rest) s) rfl).mpr
    ⟨(enabled_withSchedule e rest s).trans hen, effect_withSchedule e rest s⟩

theorem run_succ {M : Host.Core} {s t : M.State} (k : Nat) (h : M.step s = .next t) :
    M.run (k + 1) s = M.run k t := by
  simp only [Host.Core.run, h]

/-- The host's run takes the schedule in the state step by step as `runSteps` does. -/
theorem run_of_runSteps {sch : List RunStep} {s t : State} (h : runSteps sch s = .next t) :
    Host.Core.run Sys2Proof.core sch.length (withSchedule sch s) = .next (withSchedule [] t) := by
  induction sch generalizing s with
  | nil => cases h; rfl
  | cons e rest ih =>
    obtain ⟨hen, hrest⟩ := runSteps_cons_iff.mp h
    exact (run_succ (M := Sys2Proof.core) rest.length (step_withSchedule rest hen)).trans (ih hrest)

/-- Settles O58. -/
theorem scheduledRunIsStepRun : Obligations.ScheduledRunIsStepRun := by
  intro sch s t hempty hrun
  have hfinal : withSchedule [] t = t := by
    rw [withSchedule, ← hempty, ← runSteps_schedule hrun]
  rw [← hfinal]
  exact run_of_runSteps hrun

end Sys2Proof.Proofs.Safety
end

section
/-! PROOFS. Runs: a stream of bytes into the capture (42_page_capture.md section 2), and the ticks
to the hand-off (44_timeout_supervisor.md section 5). -/

namespace Sys2Proof.Proofs.Runs

open Sys2Proof Sys2Proof.Machine Sys2Proof.Proofs.Steps Sys2Proof.Proofs.Routes
  Sys2Proof.Proofs.HandOff Sys2Proof.Proofs.Handlers

/-! ### A stream of bytes that fits the round (R132 to R134) -/

/-- What a stream of bytes leaves of a state whose channel it fits, but for the buffer. -/
def streamed (d : List Byte) (buf : Vector Byte Config.bufBytes) (s : State) : State :=
  { s with
    idleCnt := if d = [] then s.idleCnt else 0
    dmaIdx := s.dmaIdx + d.length
    htif := if s.dmaIdx < 128 ∧ 128 ≤ s.dmaIdx + d.length then true else s.htif
    tcif := if s.dmaIdx < 256 ∧ s.dmaIdx + d.length = 256 then true else s.tcif
    buf := buf }

/-- A flag raised where the position reaches a mark, by the first byte or by a later one. -/
theorem flag_passed {idx n mark : Nat} (old : Bool) :
    (if idx + 1 < mark ∧ mark ≤ idx + 1 + n then true else if idx + 1 = mark then true else old) =
      if idx < mark ∧ mark ≤ idx + (n + 1) then true else old := by
  grind

theorem flag_reached {idx n mark : Nat} (hfits : idx + (n + 1) ≤ mark) (old : Bool) :
    (if idx + 1 < mark ∧ idx + 1 + n = mark then true else if idx + 1 = mark then true else old) =
      if idx < mark ∧ idx + (n + 1) = mark then true else old := by
  grind

theorem streamed_cons (b : Byte) (d : List Byte) (buf : Vector Byte Config.bufBytes) {s : State}
    (hfits : s.dmaIdx + (d.length + 1) ≤ 256) :
    streamed d buf (rxDmaStore b s) = streamed (b :: d) buf s := by
  rw [rxDmaStore_eq, streamed, streamed]
  simp only [List.length_cons, flag_passed, flag_reached hfits]
  simp [State.setBufByte, Nat.add_assoc, Nat.add_comm 1]

theorem stream_run (d : List Byte) {s : State} (hlive : s.live) (hen : s.rxEn = true)
    (hdma : s.rxDma = true) (hch : s.dmaEn = true) (hfits : s.dmaIdx + d.length ≤ 256) :
    ∃ t, runSteps (d.map .rx) s = .next t ∧ t = streamed d t.buf s ∧
      (∀ k, (h : k < d.length) → t.bufByte (s.dmaIdx + k) = d[k]) ∧
      ∀ j, j < s.dmaIdx ∨ s.dmaIdx + d.length ≤ j → t.bufByte j = s.bufByte j := by
  induction d generalizing s with
  | nil =>
    have hhalf : ¬ (s.dmaIdx < 128 ∧ 128 ≤ s.dmaIdx) := by omega
    have hfull : ¬ (s.dmaIdx < 256 ∧ s.dmaIdx = 256) := by omega
    exact ⟨s, rfl, by simp [streamed, hhalf, hfull], by simp, fun _ _ => rfl⟩
  | cons b d ih =>
    rw [List.length_cons] at hfits
    have hidx : s.dmaIdx < 256 := by omega
    have hroute := rxRoute_dmaStore hlive hen hdma hch hidx
    have hstore : effect (.rx b) s = rxDmaStore b s := by rw [effect, hroute, rxEffect]
    have hfits' : s.dmaIdx + 1 + d.length ≤ 256 := by omega
    obtain ⟨t, hrun, ht, hnew, hold⟩ := ih (s := rxDmaStore b s) hlive hen hdma hch hfits'
    have hnew' : ∀ k, (h : k < d.length) → t.bufByte (s.dmaIdx + 1 + k) = d[k] := hnew
    have hold' : ∀ j, j < s.dmaIdx + 1 ∨ s.dmaIdx + 1 + d.length ≤ j →
        t.bufByte j = if j = s.dmaIdx then b else s.bufByte j :=
      fun j hj => (hold j hj).trans (bufByte_rxDmaStore b hidx j)
    refine ⟨t, ?_, ht.trans (streamed_cons b d t.buf hfits), fun k hk => ?_, fun j hj => ?_⟩
    · rw [List.map_cons, runSteps_cons_iff, hstore]
      exact ⟨rfl, hrun⟩
    · cases k with
      | zero => rw [Nat.add_zero, hold' s.dmaIdx (.inl (by omega)), if_pos rfl]; rfl
      | succ k =>
        have hk' : k < d.length := by simpa using hk
        rw [show s.dmaIdx + (k + 1) = s.dmaIdx + 1 + k by omega, hnew' k hk']
        rfl
    · rw [List.length_cons] at hj
      rw [hold' j (by omega), if_neg (by omega)]

/-- Settles O53. -/
theorem captureStreamFillsBuffer : Obligations.CaptureStreamFillsBuffer :=
  fun _ d hlive hen hdma hch hfits => stream_run d hlive hen hdma hch hfits

/-! ### The ticks to the hand-off (R177) -/

/-- The reset state after `n` served ticks, with one more waiting or not. -/
def ticked (s : State) (n : Nat) (waiting : Bool) : State :=
  { s with remain := s.params.timeoutTicks - n, tif := waiting }

/-- A tick waits at the end of a schedule that serves its ticks, where one waits at its start as
`waiting` says. -/
def waitsAfter (waiting : Bool) (sch : List RunStep) : Bool :=
  decide (sch.count .irqTim < sch.count .tick + waiting.toNat)

theorem ticked_zero {s : State} (hs : s.AtReset) : ticked s 0 false = s := by
  rw [ticked, Nat.sub_zero, ← hs.remain, ← hs.tif]

section
variable {s : State} (hs : s.AtReset) (n : Nat) (w : Bool)
include hs

theorem ticked_live : (ticked s n w).live :=
  ⟨hs.halted, by simp [ticked, hs.seq], by simp [ticked, hs.seq]⟩

theorem effect_rx_ticked {b : Byte} (hb : b ≠ s.params.activationByte) :
    effect (.rx b) (ticked s n w) = ticked s n w := by
  have hroute := rxRoute_activation (ticked_live hs n w) hs.rxEn hs.rxDma hs.seq
  rw [effect, hroute, rxEffect, rxActivation_other (s := ticked s n w) hb, ticked, ← hs.idleCnt]

theorem effect_idle_ticked : effect .idle (ticked s n w) = ticked s n w := by
  refine effect_idle_off fun h => ?_
  have hie : s.idleIe = true := h.2.2
  exact absurd (hs.idleIe.symm.trans hie) (by decide)

theorem effect_te_ticked : effect .te (ticked s n w) = ticked s n w := by
  refine effect_te_off fun h => ?_
  have hch : s.dmaEn = true := h.2
  exact absurd (hs.dmaEn.symm.trans hch) (by decide)

theorem effect_step_ticked : effect .step (ticked s n w) = ticked s n w := by
  have hseq : (ticked s n w).seq = .aPoll := hs.seq
  rw [effect, hseq, stepEffect]

theorem effect_tick_ticked : effect .tick (ticked s n w) = ticked s n true :=
  effect_tick_on ⟨ticked_live hs n w, hs.sup⟩

theorem enabled_step_ticked : enabled .step (ticked s n w) = true := by
  simpa [enabled] using (frozen_eq_false _).mpr (ticked_live hs n w)

theorem enabled_irqTim_ticked : enabled .irqTim (ticked s n true) = true :=
  (irqTimEnabled_iff _).mpr ⟨rfl, hs.sup, ticked_live hs n true⟩

omit hs in
theorem effect_irqTim_ticked (hmore : n + 1 < s.params.timeoutTicks) :
    effect .irqTim (ticked s n true) = ticked s (n + 1) false := by
  have htwo : 2 ≤ (ticked s n true).remain := by simp only [ticked]; omega
  rw [effect, timerTick_counts htwo]
  rfl

end

/-- Up to the last tick a schedule that serves its ticks only counts them. -/
theorem runSteps_ticked {s : State} (hs : s.AtReset) {sch : List RunStep} {n : Nat} {w : Bool}
    (hserved : ticksServed s.params w sch = true)
    (hmore : n + sch.count .irqTim < s.params.timeoutTicks) :
    runSteps sch (ticked s n w) = .next (ticked s (n + sch.count .irqTim) (waitsAfter w sch)) := by
  induction sch generalizing n w with
  | nil => cases w <;> rfl
  | cons e rest ih =>
    rw [runSteps_cons_iff]
    cases e with
    | tick =>
      obtain ⟨hw, hrest⟩ : w = false ∧ ticksServed s.params true rest = true := by
        simpa [ticksServed] using hserved
      subst hw
      rw [effect_tick_ticked hs, List.count_cons_of_ne (by decide)] at *
      refine ⟨rfl, (ih hrest hmore).trans ?_⟩
      simp [waitsAfter]
    | irqTim =>
      obtain ⟨hw, hrest⟩ : w = true ∧ ticksServed s.params false rest = true := by
        simpa [ticksServed] using hserved
      subst hw
      rw [List.count_cons_self] at hmore ⊢
      rw [effect_irqTim_ticked n (by omega)]
      refine ⟨enabled_irqTim_ticked hs n, (ih hrest (by omega)).trans ?_⟩
      simp [waitsAfter, Nat.add_assoc, Nat.add_comm 1]
    | rx b =>
      obtain ⟨hb, hrest⟩ : b ≠ s.params.activationByte ∧ ticksServed s.params w rest = true := by
        simpa [ticksServed] using hserved
      rw [effect_rx_ticked hs n w hb]
      exact ⟨rfl, by simpa [waitsAfter] using ih hrest (by simpa using hmore)⟩
    | step =>
      rw [effect_step_ticked hs]
      exact ⟨enabled_step_ticked hs n w,
        by simpa [waitsAfter] using ih (w := w) hserved (by simpa using hmore)⟩
    | idle =>
      rw [effect_idle_ticked hs]
      exact ⟨rfl, by simpa [waitsAfter] using ih (w := w) hserved (by simpa using hmore)⟩
    | te =>
      rw [effect_te_ticked hs]
      exact ⟨rfl, by simpa [waitsAfter] using ih (w := w) hserved (by simpa using hmore)⟩
    | reset | irqHt | irqTc | irqTe | irqIdle => simp [ticksServed] at hserved

/-- Before a last served tick the ticks are served too, and one waits. -/
theorem ticksServed_irqTim_last {p : Params} {pre : List RunStep} {w : Bool}
    (h : ticksServed p w (pre ++ [.irqTim]) = true) :
    ticksServed p w pre = true ∧ waitsAfter w pre = true := by
  induction pre generalizing w with
  | nil =>
    have hw : w = true := by simpa [ticksServed] using h
    subst hw
    exact ⟨rfl, rfl⟩
  | cons e rest ih =>
    cases e with
    | tick =>
      obtain ⟨rfl, hrest⟩ : w = false ∧ ticksServed p true (rest ++ [.irqTim]) = true := by
        simpa [ticksServed] using h
      simpa [ticksServed, waitsAfter] using ih hrest
    | irqTim =>
      obtain ⟨rfl, hrest⟩ : w = true ∧ ticksServed p false (rest ++ [.irqTim]) = true := by
        simpa [ticksServed] using h
      simpa [ticksServed, waitsAfter] using ih hrest
    | rx b =>
      obtain ⟨hb, hrest⟩ : b ≠ p.activationByte ∧
          ticksServed p w (rest ++ [.irqTim]) = true := by
        simpa [ticksServed] using h
      simpa [ticksServed, waitsAfter, hb] using ih hrest
    | step | idle | te => simpa [ticksServed, waitsAfter] using ih (w := w) h
    | reset | irqHt | irqTc | irqTe | irqIdle => simp [ticksServed] at h

theorem runSteps_append {a b : List RunStep} {s t : State} (h : runSteps a s = .next t) :
    runSteps (a ++ b) s = runSteps b t := by
  induction a generalizing s with
  | nil => cases h; rfl
  | cons e rest ih =>
    obtain ⟨hen, hrest⟩ := runSteps_cons_iff.mp h
    obtain ⟨i, hf, hx⟩ := runStep_iff.mpr ⟨hen, rfl⟩
    rw [List.cons_append, runSteps, hf]
    simp only [hx]
    exact ih hrest

/-- Settles O54: the ticks before the last only count down, and the handler of the last one
expires. -/
theorem exactlyTimeoutTicksToHandOff : Obligations.ExactlyTimeoutTicksToHandOff := by
  intro s sch hvalid hs hserved
  constructor
  · intro hmore
    have hrun := runSteps_ticked hs (n := 0) hserved (by omega)
    rw [ticked_zero hs, Nat.zero_add] at hrun
    simpa [waitsAfter, ticked] using hrun
  · rintro pre rfl hlast
    obtain ⟨hserved', hwaits⟩ := ticksServed_irqTim_last hserved
    have hrun := runSteps_ticked hs (n := 0) hserved' (by omega)
    rw [ticked_zero hs, Nat.zero_add, hwaits] at hrun
    have hremain : (ticked s (pre.count .irqTim) true).remain ≤ 1 := by simp only [ticked]; omega
    have hexpire : runSteps (pre ++ [.irqTim]) s =
        .next (expire { s with tif := false, remain := 0 }) := by
      rw [runSteps_append hrun, runSteps_singleton_iff]
      exact ⟨enabled_irqTim_ticked hs _, timerTick_expires hremain⟩
    rw [hexpire]
    have htif : s.tif = false := hs.tif
    constructor
    · intro hword
      rw [expire_present (s := { s with tif := false, remain := 0 }) hvalid hword, ← htif]
    · intro hword
      rw [expire_absent (s := { s with tif := false, remain := 0 }) hvalid hword, ← htif]

end Sys2Proof.Proofs.Runs
end

section
/-! PROOFS. `receive_command` (41_serial_frame_receiver.md) implements format C (30_encoding.md):
its span over the symbols of a command frame does, symbol by symbol, what the scan of the frame
does. -/

namespace Sys2Proof.Proofs.Reception

open Sys2Proof Sys2Proof.Machine Sys2Proof.Proofs.Receiver Sys2Proof.Proofs.Steps
  Sys2Proof.Proofs.Routes Sys2Proof.Proofs.Handlers Sys2Proof.Proofs.Session Sys2Proof.Proofs.Codec

/-- Inside `receive_command`, `k` idle frames counted since the last byte, the payload bytes `front`
captured so far. -/
structure Listening (s : State) (k : Nat) (front : List Byte) : Prop where
  seq : s.seq = .cRecv
  halted : s.halted = false
  rxEn : s.rxEn = true
  rxDma : s.rxDma = false
  msgDone : s.msgDone = false
  idleIe : s.idleIe = true
  idleIf : s.idleIf = false
  idleCnt : s.idleCnt = k
  rxLen : s.rxLen = front.length
  captured : ∀ j, (h : j < front.length) → s.bufByte j = front[j]

theorem Listening.live {s : State} {k : Nat} {front : List Byte} (h : Listening s k front) :
    s.live := ⟨h.halted, by simp [h.seq], by simp [h.seq]⟩

/-- The state in which `receive_command` returns, with `n` payload bytes captured. -/
def returned (f : FrameState) (n : Nat) (buf : Vector Byte Config.bufBytes) (s : State) : State :=
  { s with
    frame := f, buf := buf
    idleCnt := 2, msgDone := true, idleIe := false, idleIf := false
    rxLen := n, seq := .cDispatch, schedule := [] }

/-! ### The span, step by step -/

/-- One step of the span, while the main context is inside `receive_command`. -/
theorem receiveSpan_cons {s t : State} {e : RunStep} {rest : List RunStep} (hseq : s.seq = .cRecv)
    (hrun : s.halted = false) (hstep : spanStep e { s with schedule := rest } = .next t) :
    receiveSpan (e :: rest) s = receiveSpan rest t := by
  have hin : inReceive s = true := (stepEnabled_iff .cRecv s).mpr ⟨hseq, hrun⟩
  rw [receiveSpan, if_pos hin, hstep]

/-- The poll that finds the message done ends the span. -/
theorem receiveSpan_return {s : State} (hseq : s.seq = .cRecv) (hrun : s.halted = false)
    (hdone : s.msgDone = true) :
    receiveSpan [.step] s = .next { s with seq := .cDispatch, schedule := [] } := by
  have hpoll : spanStep .step { s with schedule := [] } =
      .next { s with seq := .cDispatch, schedule := [] } := by
    refine (exec_stepAt (s := { s with schedule := [] }) (q := .cRecv) (i := .stepCRecv) rfl
      hrun hseq).trans ?_
    rw [stepEffect, if_pos hdone]
  rw [receiveSpan_cons hseq hrun hpoll]
  rfl

section
variable {s : State} {k : Nat} {front : List Byte} (h : Listening s k front)
  (rest : List RunStep)
include h

omit h in
theorem spanStep_rx {r : RxRoute} (b : Byte) (hroute : rxRoute s = r) :
    spanStep (.rx b) { s with schedule := rest } =
      .next (rxEffect r b { s with schedule := rest }) :=
  (exec_rx_of_route (s := { s with schedule := rest }) b hroute).1

/-- A byte before the message moves the framing state, as in the scan. -/
theorem receiveSpan_noise {b : Byte} (hf : s.frame ≠ .messageActive) :
    receiveSpan (.rx b :: rest) s = receiveSpan rest
      { s with schedule := rest, idleCnt := 0, frame := nextFrame s.params s.frame b } := by
  obtain ⟨r, hroute, heffect⟩ : ∃ r, rxRoute s = r ∧ ∀ u, rxEffect r b u = rxFraming b u := by
    cases hframe : s.frame with
    | messageActive => exact absurd hframe hf
    | idle =>
      exact ⟨_, rxRoute_eq_frameIdle h.live h.rxEn h.rxDma h.seq h.msgDone hframe, fun _ => rfl⟩
    | startDetectedOnce =>
      exact ⟨_, rxRoute_eq_frameStart1 h.live h.rxEn h.rxDma h.seq h.msgDone hframe,
        fun _ => rfl⟩
  exact receiveSpan_cons h.seq h.halted
    ((spanStep_rx rest b hroute).trans (congrArg _ (heffect _)))

/-- A byte of the message is captured, as in the scan. -/
theorem receiveSpan_payload {b : Byte} (hf : s.frame = .messageActive)
    (hfits : front.length < 256) :
    receiveSpan (.rx b :: rest) s = receiveSpan rest
      { s.setBufByte front.length b with
        schedule := rest, idleCnt := 0, rxLen := front.length + 1 } := by
  have hroute := rxRoute_frameActive h.live h.rxEn h.rxDma h.seq h.msgDone hf
  have hlen : s.rxLen < 256 := h.rxLen ▸ hfits
  refine receiveSpan_cons h.seq h.halted ((spanStep_rx rest b hroute).trans (congrArg _ ?_))
  rw [rxEffect, rxPolledStore_fits (s := { s with schedule := rest }) hlen, ← h.rxLen]
  rfl

/-- An idle frame and its handler, in the span: the flag is raised and served. -/
theorem receiveSpan_idle :
    receiveSpan (.idle :: .irqIdle :: rest) s = receiveSpan rest
      (effect .irqIdle { s with schedule := rest, idleIf := true }) := by
  have hlatch : spanStep .idle { s with schedule := .irqIdle :: rest } =
      .next { s with schedule := .irqIdle :: rest, idleIf := true } :=
    congrArg _ (effect_idle_on (s := { s with schedule := .irqIdle :: rest })
      ⟨h.live, h.rxEn, h.idleIe⟩)
  rw [receiveSpan_cons h.seq h.halted hlatch]
  refine receiveSpan_cons h.seq h.halted ?_
  exact exec_irqIdle_eq_next.mpr ⟨(irqIdleEnabled_iff _).mpr ⟨rfl, h.idleIe, h.live⟩, rfl⟩

theorem receiveSpan_idle_counts (hk : k + 1 ≠ 2) :
    receiveSpan (.idle :: .irqIdle :: rest) s = receiveSpan rest
      { s with schedule := rest, idleIf := false, idleCnt := k + 1 } := by
  rw [receiveSpan_idle h, effect_irqIdle_counts (by simpa [h.idleCnt] using hk), ← h.idleCnt]

theorem receiveSpan_idle_completes (hk : k + 1 = 2) :
    receiveSpan [.idle, .irqIdle, .step] s = .next (returned s.frame front.length s.buf s) := by
  rw [receiveSpan_idle h, effect_irqIdle_completes (by simpa [h.idleCnt] using hk), returned,
    ← h.rxLen]
  exact receiveSpan_return (s := { s with
    schedule := [.step], idleIf := false, idleCnt := 2, msgDone := true, idleIe := false })
    h.seq h.halted rfl

end

/-! ### The listening state, symbol by symbol -/

section
variable {s : State} {k : Nat} {front : List Byte} (h : Listening s k front)
include h

theorem listening_noise (rest : List RunStep) (f : FrameState) :
    Listening { s with schedule := rest, idleCnt := 0, frame := f } 0 front :=
  { h with idleCnt := rfl }

theorem listening_idle (rest : List RunStep) :
    Listening { s with schedule := rest, idleIf := false, idleCnt := k + 1 } (k + 1) front :=
  { h with idleCnt := rfl, idleIf := rfl }

theorem listening_payload (rest : List RunStep) (b : Byte) (hfits : front.length < 256) :
    Listening { s.setBufByte front.length b with
      schedule := rest, idleCnt := 0, rxLen := front.length + 1 } 0 (front ++ [b]) :=
  { h with
    idleCnt := rfl
    rxLen := by simp
    captured := fun j hj => by
      refine (bufByte_setBufByte s front.length j b hfits).trans ?_
      rcases Nat.lt_or_eq_of_le (Nat.le_of_lt_succ (by simpa using hj)) with hlt | rfl
      · rw [if_neg (by omega), h.captured j hlt, List.getElem_append_left hlt]
      · rw [if_pos rfl, List.getElem_concat_length rfl] }

end

/-! ### The simulation -/

theorem linkRun_byte (b : Byte) (syms : List LinkSymbol) :
    linkRun (.byte b :: syms) ++ [.step] = .rx b :: (linkRun syms ++ [.step]) := rfl

theorem linkRun_idle (syms : List LinkSymbol) :
    linkRun (.idle :: syms) ++ [.step] = .idle :: .irqIdle :: (linkRun syms ++ [.step]) := rfl

theorem linkBytes_byte (b : Byte) (syms : List LinkSymbol) :
    linkBytes (.byte b :: syms) = b :: linkBytes syms := rfl

theorem linkBytes_idle (syms : List LinkSymbol) : linkBytes (.idle :: syms) = linkBytes syms := rfl

/-- What the span leaves when the scan of its symbols ends in `payload`, `front` of it captured
before. -/
structure Captures (s : State) (front : List Byte) (syms : List LinkSymbol) (payload : List Byte)
    (t : State) : Prop where
  returns : receiveSpan (linkRun syms ++ [.step]) s = .next t
  state : t = returned ((linkBytes syms).foldl (nextFrame s.params) s.frame) payload.length t.buf s
  extends_front : front.length ≤ payload.length
  stored : ∀ j, (h : j < payload.length) → t.bufByte j = payload[j]
  kept : ∀ j, payload.length ≤ j → t.bufByte j = s.bufByte j

theorem receiveSpan_linkRun {syms : List LinkSymbol} {s : State} {k : Nat}
    {front payload : List Byte} (hl : Listening s k front)
    (hscan : scanFrame s.params s.frame front k syms = .ok payload) :
    ∃ t, Captures s front syms payload t := by
  induction syms generalizing s k front with
  | nil => rw [scanFrame] at hscan; cases hscan
  | cons sym syms ih =>
    cases sym with
    | idle =>
      rw [scanFrame] at hscan
      split_ifs at hscan with hlast hend
      · cases hscan
        subst hend
        exact ⟨_, receiveSpan_idle_completes hl hlast, rfl, le_rfl, hl.captured, fun _ _ => rfl⟩
      · obtain ⟨t, ht⟩ := ih (listening_idle hl (linkRun syms ++ [.step])) hscan
        exact ⟨t, by rw [linkRun_idle, receiveSpan_idle_counts hl _ hlast, ht.returns],
          ht.state, ht.extends_front, ht.stored, ht.kept⟩
    | byte b =>
      by_cases hf : s.frame = .messageActive
      · rw [hf] at hscan
        by_cases hfits : front.length < 256
        · rw [scanFrame_payload _ hfits, ← hf] at hscan
          obtain ⟨t, ht⟩ := ih (listening_payload hl (linkRun syms ++ [.step]) b hfits) hscan
          have hlonger : front.length + 1 ≤ payload.length := by
            simpa using ht.extends_front
          have hactive : nextFrame s.params s.frame b = s.frame := by rw [hf]; rfl
          refine ⟨t, by rw [linkRun_byte, receiveSpan_payload hl _ hf hfits, ht.returns], ?_,
            by omega, ht.stored, fun j hj => ?_⟩
          · rw [linkBytes_byte, List.foldl_cons, hactive]
            exact ht.state
          · refine (ht.kept j hj).trans ((bufByte_setBufByte s front.length j b hfits).trans ?_)
            rw [if_neg (by omega)]
        · rw [scanFrame_overflow _ hfits] at hscan
          cases hscan
      · rw [scanFrame_noise _ hf] at hscan
        obtain ⟨t, ht⟩ := ih (listening_noise hl (linkRun syms ++ [.step])
          (nextFrame s.params s.frame b)) hscan
        exact ⟨t, by rw [linkRun_byte, receiveSpan_noise hl _ hf, ht.returns], ht.state,
          ht.extends_front, ht.stored, ht.kept⟩

theorem listening_enterReceive {s : State} (hrun : s.halted = false) (hen : s.rxEn = true)
    (hdma : s.rxDma = false) : Listening (enterReceive s) 0 [] :=
  ⟨rfl, hrun, hen, hdma, rfl, rfl, rfl, rfl, rfl, nofun⟩

/-- Settles O59. -/
theorem receiverImplementsFormatC : Obligations.ReceiverImplementsFormatC := by
  intro s syms payload hseq hrun hmode hen hdma hsch hscan
  obtain ⟨t, ht⟩ := receiveSpan_linkRun (listening_enterReceive hrun hen hdma) hscan
  have hexec : exec .receiveCommand s = .next t := by
    have hstart : stepEnabled .cEnter s = true := (stepEnabled_iff .cEnter s).mpr ⟨hseq, hrun⟩
    rw [show exec .receiveCommand s = execReceiveCommand s from rfl, execReceiveCommand,
      if_pos hstart, hsch, ht.returns]
  have hfits : payload.length ≤ 256 := scanFrame_length (by simp) hscan
  have hstate := ht.state
  have hC : formatC t = true := by
    rw [formatC_iff, hstate]
    exact ⟨hmode, rfl, hrun⟩
  have hparams : t.params = s.params := by rw [hstate]; rfl
  have hlen : t.rxLen = payload.length := by rw [hstate]; rfl
  refine ⟨t, decodePayload s.params payload, hexec, hstate, ht.stored, ht.kept, ?_, ?_⟩
  · rw [decode, hscan]
  · rw [fetch_step_formatC hC, frameInstr_eq hlen hfits ht.stored, hparams]

end Sys2Proof.Proofs.Reception
end

section
/-! PROOFS. The clean session of R298, first part: what is in flash after some halves of the stream
are written, what the capture holds, and the stages of a session; none of it speaks of a schedule.
-/

namespace Sys2Proof.Proofs.CleanSession

open Sys2Proof Sys2Proof.Machine Sys2Proof.Proofs.Steps Sys2Proof.Proofs.Routes
  Sys2Proof.Proofs.Handlers Sys2Proof.Proofs.Flash Sys2Proof.Proofs.Invariant

/-! ### Halves by number -/

/-- The half of its page that half number `k` of the stream is. -/
def halfOf (k : Nat) : Half := if k % 2 = 0 then .first else .second

/-- The status that publishes half number `k`. -/
def readyOf (k : Nat) : CapStat := if k % 2 = 0 then .firstHalfReady else .secondHalfReady

/-- The number of halves in the pages that `k` halves touch. -/
def pageHalves (k : Nat) : Nat := 2 * ((k + 1) / 2)

/-- The erase that comes before half number `k`, if it begins a page. -/
def eraseOps (base k : Nat) : List FlashOp := if k % 2 = 0 then [.erase (base + 128 * k)] else []

/-- The flash operations of the first `k` halves. -/
def opsOf (base k : Nat) : List FlashOp := (List.range k).flatMap (halfOps base)

theorem halfOps_eq (base k : Nat) :
    halfOps base k = eraseOps base k ++ [.write (base + 128 * k) (halfOf k)] := by
  unfold halfOps eraseOps halfOf
  split <;> rfl

theorem opsOf_succ (base k : Nat) : opsOf base (k + 1) =
    opsOf base k ++ eraseOps base k ++ [.write (base + 128 * k) (halfOf k)] := by
  simp [opsOf, List.range_succ, halfOps_eq]

theorem readyOf_ne_none (k : Nat) : readyOf k ≠ .none := by
  unfold readyOf
  split <;> simp

theorem readyOf_eq_first {k : Nat} (h : readyOf k = .firstHalfReady) : k % 2 = 0 := by
  by_contra hk
  simp [readyOf, hk] at h

theorem readyOf_eq_second {k : Nat} (h : readyOf k = .secondHalfReady) : k % 2 = 1 := by
  by_contra hk
  have heven : k % 2 = 0 := by omega
  simp [readyOf, heven] at h

theorem halfOf_even {k : Nat} (h : k % 2 = 0) : halfOf k = .first := if_pos h

theorem halfOf_odd {k : Nat} (h : k % 2 = 1) : halfOf k = .second := if_neg (by omega)

/-- The bytes of half number `k` in the buffer start at its place in the page. -/
theorem halfOffset_halfOf (k : Nat) : halfOffset (halfOf k) = 128 * (k % 2) := by
  rcases Nat.mod_two_eq_zero_or_one k with h | h
  · rw [halfOf_even h, h, halfOffset]
  · rw [halfOf_odd h, h, halfOffset]

/-! ### Flash after some halves -/

/-- Flash `m` with the first `w` halves of the stream `d` written and `e` halves erased before them,
from the state `s0` at the start of the session. -/
structure Image (s0 : State) (d : List Byte) (w e : Nat) (m : Memory) : Prop where
  written : ∀ n, n < 128 * w → d[n]? = some (m.read (s0.params.appBase.toNat + n))
  erased : ∀ n, 128 * w ≤ n → n < 128 * e →
    m.read (s0.params.appBase.toNat + n) = s0.params.erasedByte
  kept : ∀ a, ¬ (s0.params.appBase.toNat ≤ a ∧ a < s0.params.appBase.toNat + 128 * e) →
    m.read a = s0.flash.read a

theorem getElem?_append_of_eq_some {d d' : List Byte} {n : Nat} {b : Byte} (h : d[n]? = some b) :
    (d ++ d')[n]? = some b := by
  obtain ⟨hn, -⟩ := List.getElem?_eq_some_iff.mp h
  rw [List.getElem?_append_left hn, h]

/-- More of the stream changes nothing of the halves written. -/
theorem Image.append {s0 : State} {d : List Byte} {w e : Nat} {m : Memory}
    (h : Image s0 d w e m) (d' : List Byte) : Image s0 (d ++ d') w e m :=
  { h with written := fun n hn => getElem?_append_of_eq_some (h.written n hn) }

/-- No half is written over the flash of the start. -/
theorem image_start (s0 : State) : Image s0 [] 0 0 s0.flash :=
  ⟨fun n hn => absurd hn (by omega), fun n _ hn => absurd hn (by omega), fun _ _ => rfl⟩

section
variable {s0 s : State} {d : List Byte} {w : Nat} (hwf : s.flash.wf = true)
  (hcur : s.curAddr.toNat = s0.params.appBase.toNat + 128 * w)
include hwf hcur

/-- The erase at the cursor adds the page behind the halves written. -/
theorem Image.erase (hparams : s.params = s0.params) {e : Nat}
    (h : Image s0 d w e s.flash) (he : e = w)
    (hin : inAppRegion s.params s.curAddr.toNat Config.pageBytes = true) :
    Image s0 d w (w + 2) (pageErased s.curAddr s) := by
  subst he
  have hread := read_pageErased hwf hin
  rw [hcur, hparams] at hread
  refine ⟨fun n hn => ?_, fun n hge hlt => ?_, fun a ha => ?_⟩ <;> rw [hread]
  · rw [if_neg (by omega), h.written n hn]
  · rw [if_pos (by omega)]
  · rw [if_neg (by omega), h.kept a (by omega)]

/-- The burst at the cursor adds the half that the buffer holds. -/
theorem Image.write {e : Nat} (h : Image s0 d w e s.flash) (he : w + 1 ≤ e)
    (hlatch : s.latch = halfOf w)
    (hin : inAppRegion s.params s.curAddr.toNat Config.halfBytes = true)
    (hbuf : ∀ n, 128 * w ≤ n → n < 128 * (w + 1) → d[n]? = some (s.bufByte (n % 256))) :
    Image s0 d (w + 1) e (halfWritten s.curAddr s.latch s) := by
  have hread := read_halfWritten hwf s.latch hin
  rw [hcur, hlatch, halfOffset_halfOf] at hread
  rw [hlatch]
  refine ⟨fun n hn => ?_, fun n hge hlt => ?_, fun a ha => ?_⟩ <;> rw [hread]
  · by_cases hold : n < 128 * w
    · rw [if_neg (by omega), h.written n hold]
    · rw [if_pos (by omega), hbuf n (by omega) hn,
        show 128 * (w % 2) + (s0.params.appBase.toNat + n - (s0.params.appBase.toNat + 128 * w)) =
          n % 256 by omega]
  · rw [if_neg (by omega), h.erased n (by omega) hlt]
  · rw [if_neg (by omega), h.kept a ha]

end

/-! ### The capture -/

/-- How many halves have been published in `CAPSTAT`, `k` of them taken already. -/
def published (k : Nat) (c : CapStat) : Nat := if c = .none then k else k + 1

theorem published_none {k : Nat} {c : CapStat} (hnone : c = .none) : published k c = k :=
  if_pos hnone

/-- What the capture holds of the stream `d`, of which `k` halves are written and cleared: the
position and the half-transfer flag follow the stream, and the buffer holds every byte past the `k`
halves. -/
structure Capturing (d : List Byte) (k : Nat) (s : State) : Prop where
  status : s.capstat = .none ∨ s.capstat = readyOf k
  position : d.length = 256 * (published k s.capstat / 2) + s.dmaIdx
  complete : 128 * published k s.capstat ≤ d.length
  flag : s.htif = true ↔ published k s.capstat % 2 = 0 ∧ 128 ≤ s.dmaIdx
  fits : d.length ≤ 128 * k + 256
  buffered : ∀ n, 128 * k ≤ n → n < d.length → d[n]? = some (s.bufByte (n % 256))

/-- The elements that the capture is read from. -/
structure SameCapture (s t : State) : Prop where
  capstat : t.capstat = s.capstat
  dmaIdx : t.dmaIdx = s.dmaIdx
  htif : t.htif = s.htif
  buf : t.buf = s.buf

theorem Capturing.congr {d : List Byte} {k : Nat} {s t : State} (h : Capturing d k s)
    (hsame : SameCapture s t) : Capturing d k t := by
  obtain ⟨hstat, hidx, hflag, hbuf⟩ := hsame
  obtain ⟨hstatus, hposition, hcomplete, hflag', hfits, hbuffered⟩ := h
  refine ⟨?_, ?_, ?_, ?_, hfits, fun n hge hlt => ?_⟩
  · rwa [hstat]
  · rwa [hstat, hidx]
  · rwa [hstat]
  · rwa [hstat, hidx, hflag]
  · rw [bufByte_congr hbuf, hbuffered n hge hlt]

section
variable {d : List Byte} {k : Nat} {s : State} (h : Capturing d k s)
include h

theorem Capturing.published_ready (hready : s.capstat ≠ .none) :
    s.capstat = readyOf k ∧ published k s.capstat = k + 1 :=
  ⟨h.status.resolve_left hready, if_neg hready⟩

/-- A byte that no mark forbids has a place past the halves still to be written: had the second half
been published and the position passed the first, the byte would carry V3. -/
theorem Capturing.room (hidx : s.dmaIdx < 256)
    (hunmarked : ¬ (128 ≤ s.dmaIdx ∧ s.capstat = .secondHalfReady)) :
    d.length < 128 * k + 256 := by
  have hposition := h.position
  by_cases hnone : s.capstat = .none
  · rw [published_none hnone] at hposition
    omega
  · obtain ⟨hready, hpub⟩ := h.published_ready hnone
    rw [hpub] at hposition
    rcases Nat.mod_two_eq_zero_or_one k with hk | hk
    · omega
    · have hsecond : s.capstat = .secondHalfReady := by
        rw [hready, readyOf, if_neg (by omega)]
      have hlow : s.dmaIdx < 128 := by
        by_contra hge
        exact hunmarked ⟨by omega, hsecond⟩
      omega

/-- The DMA store of an unmarked byte appends it to the stream. -/
theorem Capturing.store (b : Byte) (hidx : s.dmaIdx < 256)
    (hunmarked : ¬ (128 ≤ s.dmaIdx ∧ s.capstat = .secondHalfReady)) :
    Capturing (d ++ [b]) k (rxDmaStore b s) := by
  have hroom := h.room hidx hunmarked
  have hposition := h.position
  have hcomplete := h.complete
  have hlen : (d ++ [b]).length = d.length + 1 := by simp
  have hmod : d.length % 256 = s.dmaIdx := by omega
  refine ⟨h.status, ?_, ?_, ?_, by omega, fun n hge hlt => ?_⟩
  · rw [hlen, hposition, Nat.add_assoc]
    rfl
  · rw [hlen]
    exact hcomplete.trans (Nat.le_succ _)
  · have hflag := h.flag
    have hstat : (rxDmaStore b s).capstat = s.capstat := rfl
    have hidx' : (rxDmaStore b s).dmaIdx = s.dmaIdx + 1 := rfl
    rw [hstat, hidx', rxDmaStore_eq]
    generalize published k s.capstat = n at hposition hcomplete hflag
    by_cases hmark : s.dmaIdx + 1 = 128
    · simp only [hmark, if_true, true_iff]
      omega
    · simp only [hmark, if_false, hflag]
      omega
  · rw [bufByte_rxDmaStore b hidx]
    by_cases hlast : n = d.length
    · rw [hlast, hmod, if_pos rfl, List.getElem?_append_right le_rfl, Nat.sub_self]
      rfl
    · have hlt' : n < d.length := by omega
      rw [if_neg (by omega), List.getElem?_append_left hlt', h.buffered n hge hlt']

/-- `IRQ_HT` publishes the first half of a page, where nothing is published. -/
theorem Capturing.irqHt (hnone : s.capstat = .none) (hflag : s.htif = true) :
    Capturing d k (effect .irqHt s) := by
  have hposition := h.position
  obtain ⟨heven, hhalf⟩ := h.flag.mp hflag
  rw [published_none hnone] at hposition heven
  have hpub : published k (effect .irqHt s).capstat = k + 1 := if_neg (by simp [effect])
  have hidx : (effect .irqHt s).dmaIdx = s.dmaIdx := rfl
  refine ⟨.inr ?_, ?_, ?_, ?_, h.fits, h.buffered⟩
  · rw [readyOf, if_pos heven]
    rfl
  · rw [hpub, hidx]
    omega
  · rw [hpub]
    omega
  · rw [hpub]
    have hodd : ¬ (k + 1) % 2 = 0 := by omega
    simp [effect, hodd]

/-- `IRQ_TC` publishes the second half of a page, where nothing is published and the first half is
taken. -/
theorem Capturing.irqTc (hnone : s.capstat = .none) (hfull : s.dmaIdx = 256) (hodd : k % 2 = 1) :
    Capturing d k (effect .irqTc s) := by
  have hposition := h.position
  have hflag := h.flag
  rw [published_none hnone] at hposition hflag
  have hpub : published k (effect .irqTc s).capstat = k + 1 := if_neg (by simp [effect])
  have hidx : (effect .irqTc s).dmaIdx = 0 := rfl
  refine ⟨.inr ?_, ?_, ?_, ?_, h.fits, h.buffered⟩
  · rw [readyOf, if_neg (by omega)]
    rfl
  · rw [hpub, hidx]
    omega
  · rw [hpub]
    omega
  · rw [hpub, hidx]
    have hoff : ¬ (s.htif = true) := fun hset => by
      have := (hflag.mp hset).1
      omega
    simpa [effect] using hoff

/-- With a half published, the half is in the buffer. -/
theorem Capturing.half (hready : s.capstat ≠ .none) (n : Nat) (hge : 128 * k ≤ n)
    (hlt : n < 128 * (k + 1)) : d[n]? = some (s.bufByte (n % 256)) := by
  obtain ⟨-, hpub⟩ := h.published_ready hready
  have hcomplete := h.complete
  rw [hpub] at hcomplete
  exact h.buffered n hge (by omega)

/-- The status cleared, one more half is taken. -/
theorem Capturing.clear (hready : s.capstat ≠ .none) {t : State} (hstat : t.capstat = .none)
    (hidx : t.dmaIdx = s.dmaIdx) (hflag : t.htif = s.htif) (hbuf : t.buf = s.buf) :
    Capturing d (k + 1) t := by
  obtain ⟨-, hpub⟩ := h.published_ready hready
  obtain ⟨-, hposition, hcomplete, hflag', hfits, hbuffered⟩ := h
  rw [hpub] at hposition hcomplete hflag'
  have hpub' : published (k + 1) t.capstat = k + 1 := if_pos hstat
  refine ⟨.inl hstat, ?_, ?_, ?_, by omega, fun n hge hlt => ?_⟩
  · rw [hpub', hidx, hposition]
  · rwa [hpub']
  · rw [hpub', hidx, hflag, hflag']
  · rw [bufByte_congr hbuf, hbuffered n (by omega) hlt]

/-- With nothing published and no flag pending, no other half is complete. -/
theorem Capturing.halves (hnone : s.capstat = .none) (hht : s.htif = false)
    (hnotFull : s.dmaIdx < 256) : d.length / 128 = k := by
  have hposition := h.position
  have hcomplete := h.complete
  have hflag := h.flag
  rw [published_none hnone] at hposition hcomplete hflag
  have hlow : ¬ (k % 2 = 0 ∧ 128 ≤ s.dmaIdx) := fun hset => by
    simp [hflag.mpr hset] at hht
  omega

end

end Sys2Proof.Proofs.CleanSession
end

section
/-! PROOFS. The clean session of R298, second part: what one step of it can be, and what the
environment and the handlers leave of it. -/

namespace Sys2Proof.Proofs.CleanSession

open Sys2Proof Sys2Proof.Machine Sys2Proof.Proofs.Steps Sys2Proof.Proofs.Handlers
  Sys2Proof.Proofs.Invariant

/-! ### A clean step -/

/-- What a clean session asks of a step, by its kind. -/
theorem cleanStep_iff (e : RunStep) (s : State) : cleanStep e s = true ↔
    sessionSeq s.seq = true ∧ (∀ m, marked m e s = false) ∧ e ≠ .reset ∧ e ≠ .te ∧
      ∀ b, e = .rx b → s.msgDone = false := by
  have hmarks : unmarked e s = true ↔ ∀ m, marked m e s = false := by
    simp only [unmarked, List.all_cons, List.all_nil, Bool.and_true, Bool.and_eq_true,
      Bool.not_eq_true']
    exact ⟨fun ⟨h1, h2, h3, h4, h5⟩ m => by cases m <;> assumption,
      fun h => ⟨h _, h _, h _, h _, h _⟩⟩
  unfold cleanStep
  rw [Bool.and_eq_true, Bool.and_eq_true, hmarks, and_assoc]
  refine and_congr_right fun _ => and_congr_right fun _ => ?_
  cases e <;> simp

section
variable {s : State} {e : RunStep} (hclean : cleanStep e s = true)
include hclean

theorem cleanStep_session : sessionSeq s.seq = true := ((cleanStep_iff e s).mp hclean).1

theorem cleanStep_unmarked (m : Mark) : marked m e s = false := by
  obtain ⟨-, hmarks, -⟩ := (cleanStep_iff e s).mp hclean
  exact hmarks m

end

/-- No transfer handler publishes over a published half (V1). -/
theorem capstat_none_of_transfer {s : State} {e : RunStep} (he : e = .irqHt ∨ e = .irqTc)
    (hclean : cleanStep e s = true) (hen : enabled e s = true) : s.capstat = .none := by
  have hmark := cleanStep_unmarked hclean .v1
  obtain rfl | rfl := he <;>
  · rw [enabled] at hen
    simpa [marked, hen] using hmark

/-- No byte goes into a second half still to be taken (V3). -/
theorem store_unmarked {s : State} {b : Byte} (hclean : cleanStep (.rx b) s = true)
    (hroute : rxRoute s = .dmaStore) : ¬ (128 ≤ s.dmaIdx ∧ s.capstat = .secondHalfReady) := by
  have hmark := cleanStep_unmarked hclean .v3
  rintro ⟨hge, hready⟩
  simp [marked, hroute, hready, Config.halfBytes, hge] at hmark

/-- The capture of a clean session ends with nothing published and no flag pending (V5). -/
theorem complete_unmarked {s : State} (hclean : cleanStep .step s = true) (hseq : s.seq = .pCheck)
    (hrun : s.halted = false) (hdone : s.msgDone = true) :
    s.capstat = .none ∧ s.htif = false ∧ s.tcif = false := by
  have hmark := cleanStep_unmarked hclean .v5
  have hen : stepEnabled .pCheck s = true := (stepEnabled_iff .pCheck s).mpr ⟨hseq, hrun⟩
  simpa [marked, hen, hdone, and_assoc] using hmark

/-! ### The steps of the environment and of the handlers -/

/-- What only the main context of a session writes. -/
structure SameProgress (s t : State) : Prop where
  seq : t.seq = s.seq
  latch : t.latch = s.latch
  curAddr : t.curAddr = s.curAddr
  curPages : t.curPages = s.curPages
  flash : t.flash = s.flash
  params : t.params = s.params
  reports : t.reports = s.reports

/-- The elements of a session, unchanged. -/
structure Untouched (s t : State) : Prop where
  capture : SameCapture s t
  progress : SameProgress s t
  msgDone : t.msgDone = s.msgDone

theorem untouched_refl (s : State) : Untouched s s :=
  ⟨⟨rfl, rfl, rfl, rfl⟩, ⟨rfl, rfl, rfl, rfl, rfl, rfl, rfl⟩, rfl⟩

theorem untouched_idleCnt (s : State) : Untouched s { s with idleCnt := 0 } :=
  ⟨⟨rfl, rfl, rfl, rfl⟩, ⟨rfl, rfl, rfl, rfl, rfl, rfl, rfl⟩, rfl⟩

theorem untouched_idleIf (s : State) : Untouched s { s with idleIf := true } :=
  ⟨⟨rfl, rfl, rfl, rfl⟩, ⟨rfl, rfl, rfl, rfl, rfl, rfl, rfl⟩, rfl⟩

theorem untouched_halt (s : State) : Untouched s (raise .transferFault s) :=
  ⟨⟨rfl, rfl, rfl, rfl⟩, ⟨rfl, rfl, rfl, rfl, rfl, rfl, rfl⟩, rfl⟩

/-- The kinds of step a session can hold, from a state that meets the invariant. -/
inductive Kind (s : State) : RunStep → Prop where
  | main : Kind s .step
  | store (b : Byte) (hroute : rxRoute s = .dmaStore) (hch : s.dmaEn = true)
      (hidx : s.dmaIdx < 256) : Kind s (.rx b)
  | half (hflag : s.htif = true) (hch : s.dmaEn = true) : Kind s .irqHt
  | full (hflag : s.tcif = true) (hch : s.dmaEn = true) : Kind s .irqTc
  | silence (hie : s.idleIe = true) : Kind s .irqIdle
  | quiet (e : RunStep) (he : e ≠ .step) (hstored : storedBytes e s = [])
      (hsame : Untouched s (effect e s)) : Kind s e

theorem sessionSeq_past {q : Seq} (h : sessionSeq q = true) : q ≠ .aPoll ∧ q ≠ .cRecv := by
  cases q <;> simp [sessionSeq] at h ⊢

/-- Outside the activation poll and the polled receiver, a byte is stored by the channel or only
clears `IDLECNT`. -/
theorem kind_rx {s : State} (hsess : sessionSeq s.seq = true) (b : Byte) : Kind s (.rx b) := by
  obtain ⟨hpoll, hrecv⟩ := sessionSeq_past hsess
  have hquiet : ∀ r, rxRoute s = r → r ≠ .dmaStore → Untouched s (rxEffect r b s) →
      Kind s (.rx b) := by
    rintro r rfl hne hsame
    exact .quiet _ nofun (if_neg hne) hsame
  obtain ⟨-, h⟩ | ⟨-, -, h⟩ | ⟨-, -, -, hch, hidx, h⟩ | ⟨-, -, -, -, h⟩ | ⟨-, -, -, hseq, -⟩ |
    ⟨-, -, -, hseq, -⟩ | ⟨-, -, -, hseq, -⟩ | ⟨-, -, -, hseq, -⟩ | ⟨-, -, -, -, -, h⟩ :=
    rxRoute_cases s
  · exact hquiet _ h nofun (untouched_refl s)
  · exact hquiet _ h nofun (untouched_refl s)
  · exact .store b h hch hidx
  · exact hquiet _ h nofun (untouched_idleCnt s)
  · exact absurd hseq hpoll
  · exact absurd hseq hrecv
  · exact absurd hseq hrecv
  · exact absurd hseq hrecv
  · exact hquiet _ h nofun (untouched_idleCnt s)

theorem kind_idle (s : State) : Kind s .idle := by
  by_cases h : s.live ∧ s.rxEn = true ∧ s.idleIe = true
  · exact .quiet _ nofun rfl (by rw [effect_idle_on h]; exact untouched_idleIf s)
  · exact .quiet _ nofun rfl (by rw [effect_idle_off h]; exact untouched_refl s)

theorem kind_of_clean {s : State} (hi : s.Inv) {e : RunStep} (hclean : cleanStep e s = true)
    (hen : enabled e s = true) : Kind s e := by
  obtain ⟨hsess, -, hreset, hte, -⟩ := (cleanStep_iff e s).mp hclean
  have hsup := not_armed hi.control (sessionSeq_past hsess).1
  cases e with
  | reset => exact absurd rfl hreset
  | te => exact absurd rfl hte
  | step => exact .main
  | rx b => exact kind_rx hsess b
  | idle => exact kind_idle s
  | tick =>
    have h := effect_tick_off (s := s) fun h => hsup h.2
    exact .quiet _ nofun rfl (by rw [h]; exact untouched_refl s)
  | irqHt =>
    obtain ⟨hflag, hch, -⟩ := (irqHtEnabled_iff s).mp hen
    exact .half hflag hch
  | irqTc =>
    obtain ⟨hflag, hch, -⟩ := (irqTcEnabled_iff s).mp hen
    exact .full hflag hch
  | irqTe => exact .quiet _ nofun rfl (untouched_halt s)
  | irqIdle =>
    obtain ⟨-, hie, -⟩ := (irqIdleEnabled_iff s).mp hen
    exact .silence hie
  | irqTim =>
    obtain ⟨-, harmed, -⟩ := (irqTimEnabled_iff s).mp hen
    exact absurd harmed hsup

/-- Only the main context makes progress. -/
theorem Kind.progress {s : State} {e : RunStep} (h : Kind s e) (hmain : e ≠ .step) :
    SameProgress s (effect e s) := by
  cases h with
  | main => exact absurd rfl hmain
  | store b hroute hch hidx =>
    rw [effect, hroute]
    exact ⟨rfl, rfl, rfl, rfl, rfl, rfl, rfl⟩
  | half hflag hch => exact ⟨rfl, rfl, rfl, rfl, rfl, rfl, rfl⟩
  | full hflag hch => exact ⟨rfl, rfl, rfl, rfl, rfl, rfl, rfl⟩
  | silence hie => exact ⟨rfl, rfl, rfl, rfl, rfl, rfl, rfl⟩
  | quiet e _ hstored hsame => exact hsame.progress

/-- Only the main context makes a flash operation. -/
theorem flashOps_of_ne_step {e : RunStep} (he : e ≠ .step) (s : State) : flashOps e s = [] := by
  cases e with
  | step => exact absurd rfl he
  | _ => rfl

section
variable {s : State} (hrun : s.halted = false)
include hrun

theorem flashOps_erase (hseq : s.seq = .pErase) :
    flashOps .step s = [.erase s.curAddr.toNat] := by
  simp [flashOps, stepEnabled, hseq, hrun]

theorem flashOps_write (hseq : s.seq = .pWrite) :
    flashOps .step s = [.write s.curAddr.toNat s.latch] := by
  simp [flashOps, stepEnabled, hseq, hrun]

omit hrun in
theorem flashOps_other (herase : s.seq ≠ .pErase) (hwrite : s.seq ≠ .pWrite) :
    flashOps .step s = [] := by
  simp [flashOps, stepEnabled, herase, hwrite]

end

theorem storedBytes_step (s : State) : storedBytes .step s = [] := rfl

/-! ### A run of a clean session, step by step -/

/-- The first step of a clean session, and the session that is left. -/
theorem cleanSession_cons {e : RunStep} {rest : List RunStep} {s : State} {tr : SessionTrace}
    (h : cleanSession (e :: rest) s = some tr) :
    cleanStep e s = true ∧ enabled e s = true ∧
    ∃ tr', cleanSession rest (effect e s) = some tr' ∧ tr.final = tr'.final ∧
      tr.stored = storedBytes e s ++ tr'.stored ∧ tr.ops = flashOps e s ++ tr'.ops := by
  rw [cleanSession] at h
  split at h
  · next hclean =>
    split at h
    · cases h
    · next i hf =>
      split at h
      · next t hx =>
        obtain ⟨hen, rfl⟩ := runStep_iff.mp ⟨i, hf, hx⟩
        split at h
        · next tr' hrest =>
          cases h
          exact ⟨hclean, hen, tr', hrest, rfl, rfl, rfl⟩
        · cases h
      · cases h
  · cases h

end Sys2Proof.Proofs.CleanSession
end

section
/-! PROOFS. The clean session of R298, third part: the stages of a session that still captures, of
one that closes, and of one that can no longer end cleanly; each step goes from stage to stage. -/

namespace Sys2Proof.Proofs.CleanSession

open Sys2Proof Sys2Proof.Machine Sys2Proof.Proofs.Steps Sys2Proof.Proofs.Routes
  Sys2Proof.Proofs.Handlers Sys2Proof.Proofs.Flash Sys2Proof.Proofs.Session
  Sys2Proof.Proofs.Invariant

/-! ### The stages -/

/-- `k` halves taken from the capture, the cursor `c` halves past the base, `w` halves written and
`e` erased before them. -/
structure Taking (s0 : State) (d : List Byte) (k c w e : Nat) (s : State) : Prop where
  capture : Capturing d k s
  image : Image s0 d w e s.flash
  cursor : s.curAddr.toNat = s0.params.appBase.toNat + 128 * c
  pages : s.curPages = c / 2
  params : s.params = s0.params
  reports : s.reports = s0.reports

/-- The loop that takes half number `k`, with the flash operations made so far (R212 to R216). -/
inductive Draining (s0 : State) (d : List Byte) : List FlashOp → State → Prop where
  | check (k : Nat) {s : State} (hseq : s.seq = .pCheck)
      (htaking : Taking s0 d k k k (pageHalves k) s) :
      Draining s0 d (opsOf s0.params.appBase.toNat k) s
  | erase (k : Nat) {s : State} (hseq : s.seq = .pErase) (hready : s.capstat ≠ .none)
      (hlatch : s.latch = halfOf k) (heven : k % 2 = 0)
      (htaking : Taking s0 d k k k (pageHalves k) s) :
      Draining s0 d (opsOf s0.params.appBase.toNat k) s
  | write (k : Nat) {s : State} (hseq : s.seq = .pWrite) (hready : s.capstat ≠ .none)
      (hlatch : s.latch = halfOf k) (htaking : Taking s0 d k k k (pageHalves (k + 1)) s) :
      Draining s0 d (opsOf s0.params.appBase.toNat k ++ eraseOps s0.params.appBase.toNat k) s
  | advance (k : Nat) {s : State} (hseq : s.seq = .pAdvance) (hready : s.capstat ≠ .none)
      (hlatch : s.latch = halfOf k) (htaking : Taking s0 d k k (k + 1) (pageHalves (k + 1)) s) :
      Draining s0 d (opsOf s0.params.appBase.toNat (k + 1)) s
  | clear (k : Nat) {s : State} (hseq : s.seq = .pClear) (hready : s.capstat ≠ .none)
      (htaking : Taking s0 d k (k + 1) (k + 1) (pageHalves (k + 1)) s) :
      Draining s0 d (opsOf s0.params.appBase.toNat (k + 1)) s

/-- What a session of `h` halves leaves behind (R217 to R221). -/
structure Rested (s0 : State) (h : Nat) (s : State) : Prop where
  reports : s.reports = s0.reports ++ [h / 2]
  curPages : s.curPages = 0
  curAddr : s.curAddr = s0.params.appBase
  capstat : s.capstat = .none
  msgDone : s.msgDone = false
  buf : ∀ k, s.bufByte k = 0#8

/-- The closing steps of a session of `h` halves (R217 to R221). -/
inductive Ending (s0 : State) (h : Nat) (s : State) : Prop where
  | stopping (hseq : s.seq = .eStop) (hdone : s.msgDone = true) (hpages : s.curPages = h / 2)
      (hreports : s.reports = s0.reports)
  | reporting (hseq : s.seq = .eReport) (hpages : s.curPages = h / 2)
      (hreports : s.reports = s0.reports)
  | rewinding (hseq : s.seq = .eRewind) (hpages : s.curPages = 0)
      (hreports : s.reports = s0.reports ++ [h / 2])
  | clearing (hseq : s.seq = .eClear) (hpages : s.curPages = 0)
      (hreports : s.reports = s0.reports ++ [h / 2]) (hcur : s.curAddr = s0.params.appBase)
  | leaving (hseq : s.seq = .eFallback ∨ s.seq = .cEnter) (hrested : Rested s0 h s)

/-- The capture has ended: every whole half of the stream is written. -/
structure Closing (s0 : State) (d : List Byte) (ops : List FlashOp) (s : State) : Prop where
  image : Image s0 d (d.length / 128) (pageHalves (d.length / 128)) s.flash
  params : s.params = s0.params
  ops_eq : ops = opsOf s0.params.appBase.toNat (d.length / 128)
  ending : Ending s0 (d.length / 128) s

/-- A session that does not come to its end: a second half is published or latched where the page at
the cursor waits for its first, or the block has faulted. -/
inductive Doomed (s : State) : Prop where
  | missed (hseq : s.seq = .pCheck) (hready : s.capstat = .secondHalfReady)
      (hbase : s.curAddr.toNat % 256 = 0)
  | misplaced (hseq : s.seq = .pWrite) (hlatch : s.latch = .second)
      (hbase : s.curAddr.toNat % 256 = 0)
  | faulted (hseq : s.seq = .faulted)

/-- Where a session that began in `s0` stands, with the stream `d` stored and the operations `ops`
made. -/
inductive InSession (s0 : State) (d : List Byte) (ops : List FlashOp) (s : State) : Prop where
  | draining (h : Draining s0 d ops s)
  | closing (h : Closing s0 d ops s)
  | doomed (h : Doomed s)

/-! ### A session that does not come to its end -/

theorem Doomed.step {s : State} (h : Doomed s) (hclean : cleanStep .step s = true)
    (hrun : s.halted = false) : Doomed (effect .step s) := by
  rw [effect]
  cases h with
  | missed hseq hready hbase =>
    rw [hseq, stepEffect]
    have hopen : s.msgDone = false := by
      refine Bool.eq_false_iff.mpr fun hdone => ?_
      obtain ⟨hnone, -⟩ := complete_unmarked hclean hseq hrun hdone
      simp [hready] at hnone
    rw [pollCapture_secondHalfReady hopen hready]
    exact .misplaced rfl rfl hbase
  | misplaced hseq hlatch hbase =>
    rw [hseq, stepEffect]
    obtain ⟨-, h⟩ | ⟨hal, -, -⟩ | ⟨hal, -, -⟩ := writeAtCursor_cases s
    · rw [h]
      exact .faulted rfl
    · rw [hlatch, hbase] at hal
      cases hal
    · rw [hlatch, hbase] at hal
      cases hal
  | faulted hseq =>
    have hsess := cleanStep_session hclean
    rw [hseq] at hsess
    cases hsess

theorem Kind.capstat {s : State} {e : RunStep} (h : Kind s e) (he : e ∉ [.step, .irqHt, .irqTc]) :
    (effect e s).capstat = s.capstat := by
  cases h with
  | main | half | full => simp at he
  | store b hroute hch hidx => rw [effect, hroute]; rfl
  | silence hie => rfl
  | quiet e _ _ hsame => exact hsame.capture.capstat

theorem Doomed.event {s : State} (h : Doomed s) {e : RunStep} (hkind : Kind s e) (he : e ≠ .step)
    (hclean : cleanStep e s = true) (hen : enabled e s = true) : Doomed (effect e s) := by
  have hsame := hkind.progress he
  cases h with
  | missed hseq hready hbase =>
    refine .missed (hsame.seq.trans hseq) ?_ (hsame.curAddr ▸ hbase)
    by_cases htransfer : e = .irqHt ∨ e = .irqTc
    · have hnone := capstat_none_of_transfer htransfer hclean hen
      simp [hready] at hnone
    · rw [hkind.capstat (by simp [he, htransfer]), hready]
  | misplaced hseq hlatch hbase =>
    exact .misplaced (hsame.seq.trans hseq) (hsame.latch.trans hlatch) (hsame.curAddr ▸ hbase)
  | faulted hseq => exact .faulted (hsame.seq.trans hseq)

/-! ### A session that captures: bytes and handlers -/

/-- The main context waits while the capture moves on. -/
theorem Taking.moveCapture {s0 s t : State} {d d' : List Byte} {k c w e : Nat}
    (h : Taking s0 d k c w e s) (hsame : SameProgress s t) (hcapture : Capturing (d ++ d') k t) :
    Taking s0 (d ++ d') k c w e t where
  capture := hcapture
  image := hsame.flash ▸ h.image.append d'
  cursor := hsame.curAddr ▸ h.cursor
  pages := hsame.curPages.trans h.pages
  params := hsame.params.trans h.params
  reports := hsame.reports.trans h.reports

/-- A byte is appended to the stream, any other step but the transfer handlers leaves the capture.
-/
theorem Capturing.event {d : List Byte} {k : Nat} {s : State} (h : Capturing d k s) {e : RunStep}
    (hkind : Kind s e) (he : e ∉ [.step, .irqHt, .irqTc]) (hclean : cleanStep e s = true) :
    Capturing (d ++ storedBytes e s) k (effect e s) := by
  cases hkind with
  | main | half | full => simp at he
  | store b hroute hch hidx =>
    have hbyte : storedBytes (.rx b) s = [b] := if_pos hroute
    rw [effect, hroute, hbyte]
    exact h.store b hidx (store_unmarked hclean hroute)
  | silence hie =>
    have hnone : storedBytes .irqIdle s = [] := rfl
    rw [hnone, List.append_nil]
    exact h.congr ⟨rfl, rfl, rfl, rfl⟩
  | quiet e _ hstored hsame =>
    rw [hstored, List.append_nil]
    exact h.congr hsame.capture

/-- A transfer handler publishes the next half, or dooms the session. -/
theorem Taking.transfer {s0 s : State} {d : List Byte} {k : Nat} (hi : s.Inv)
    (hseq : s.seq = .pCheck) (h : Taking s0 d k k k (pageHalves k) s) {e : RunStep}
    (hkind : Kind s e) (htransfer : e = .irqHt ∨ e = .irqTc) (hnone : s.capstat = .none) :
    Taking s0 d k k k (pageHalves k) (effect e s) ∨ Doomed (effect e s) := by
  have hsame := hkind.progress (by rintro rfl; simp at htransfer)
  have hmove : Capturing d k (effect e s) → Taking s0 d k k k (pageHalves k) (effect e s) := by
    intro hcapture
    have hmoved := h.moveCapture (d' := []) hsame (by rwa [List.append_nil])
    rwa [List.append_nil] at hmoved
  cases hkind with
  | half hflag hch => exact .inl (hmove (h.capture.irqHt hnone hflag))
  | full hflag hch =>
    have hfull := (hi.control.tcif_full hch).mp hflag
    rcases Nat.mod_two_eq_zero_or_one k with heven | hodd
    · have hbase := appBase_aligned hi.bounds.params_valid
      have hcursor := h.cursor
      rw [← h.params] at hcursor
      exact .inr (.missed hseq rfl (by rw [hsame.curAddr]; omega))
    · exact .inl (hmove (h.capture.irqTc hnone hfull hodd))
  | main | store | silence => simp at htransfer
  | quiet e _ _ huntouched =>
    exact .inl (hmove (h.capture.congr huntouched.capture))

theorem Draining.event {s0 s : State} {d : List Byte} {ops : List FlashOp}
    (h : Draining s0 d ops s) (hi : s.Inv) {e : RunStep} (hkind : Kind s e) (he : e ≠ .step)
    (hclean : cleanStep e s = true) (hen : enabled e s = true) :
    InSession s0 (d ++ storedBytes e s) ops (effect e s) := by
  have hsame := hkind.progress he
  by_cases htransfer : e = .irqHt ∨ e = .irqTc
  · have hnone := capstat_none_of_transfer htransfer hclean hen
    have hstored : storedBytes e s = [] := by obtain rfl | rfl := htransfer <;> rfl
    rw [hstored, List.append_nil]
    cases h with
    | check k hseq htaking =>
      obtain h | h := htaking.transfer hi hseq hkind htransfer hnone
      · exact .draining (.check k (hsame.seq.trans hseq) h)
      · exact .doomed h
    | erase k _ hready | write k _ hready | advance k _ hready | clear k _ hready =>
      exact absurd hnone hready
  · have hother : e ∉ [.step, .irqHt, .irqTc] := by simpa [he] using htransfer
    have hstat := hkind.capstat hother
    have hmove : ∀ {k c w n}, Taking s0 d k c w n s →
        Taking s0 (d ++ storedBytes e s) k c w n (effect e s) :=
      fun h => h.moveCapture hsame (h.capture.event hkind hother hclean)
    refine .draining ?_
    cases h with
    | check k hseq htaking => exact .check k (hsame.seq.trans hseq) (hmove htaking)
    | erase k hseq hready hlatch heven htaking =>
      exact .erase k (hsame.seq.trans hseq) (hstat ▸ hready) (hsame.latch.trans hlatch) heven
        (hmove htaking)
    | write k hseq hready hlatch htaking =>
      exact .write k (hsame.seq.trans hseq) (hstat ▸ hready) (hsame.latch.trans hlatch)
        (hmove htaking)
    | advance k hseq hready hlatch htaking =>
      exact .advance k (hsame.seq.trans hseq) (hstat ▸ hready) (hsame.latch.trans hlatch)
        (hmove htaking)
    | clear k hseq hready htaking =>
      exact .clear k (hsame.seq.trans hseq) (hstat ▸ hready) (hmove htaking)

end Sys2Proof.Proofs.CleanSession
end

section
/-! PROOFS. The clean session of R298, last part: the micro-steps of the main context, and the run
of a whole session. -/

namespace Sys2Proof.Proofs.CleanSession

open Sys2Proof Sys2Proof.Machine Sys2Proof.Proofs.Steps Sys2Proof.Proofs.Routes
  Sys2Proof.Proofs.Flash Sys2Proof.Proofs.Session Sys2Proof.Proofs.Invariant

/-! ### A session that captures: the main context -/

theorem pageHalves_even {k : Nat} (h : k % 2 = 0) :
    pageHalves k = k ∧ pageHalves (k + 1) = k + 2 := by
  unfold pageHalves
  omega

theorem pageHalves_odd {k : Nat} (h : k % 2 = 1) : pageHalves (k + 1) = pageHalves k := by
  unfold pageHalves
  omega

/-- `CUR_PAGES` counts the second halves (R215). -/
theorem pages_succ (k : Nat) :
    (if halfOf k = .second then k / 2 + 1 else k / 2) = (k + 1) / 2 := by
  rcases Nat.mod_two_eq_zero_or_one k with h | h
  · rw [halfOf_even h, if_neg (by decide)]
    omega
  · rw [halfOf_odd h, if_pos rfl]
    omega

section
variable {s0 s : State} {d : List Byte} {k : Nat} (hi : s.Inv)
include hi

/-- The poll goes on to the half published, or to the closing steps once the silence is counted. -/
theorem Taking.check (h : Taking s0 d k k k (pageHalves k) s)
    (hclean : cleanStep .step s = true) (hrun : s.halted = false) (hseq : s.seq = .pCheck) :
    InSession s0 d (opsOf s0.params.appBase.toNat k) (pollCapture s) := by
  obtain ⟨hch, -⟩ := hi.control.capture_armed (by rw [hseq]; rfl)
  cases hdone : s.msgDone with
  | true =>
    obtain ⟨hnone, hht, htc⟩ := complete_unmarked hclean hseq hrun hdone
    have hidx : s.dmaIdx < 256 := by
      refine lt_of_le_of_ne hi.bounds.dma_le fun hfull => ?_
      simp [(hi.control.tcif_full hch).mpr hfull] at htc
    have hhalves := h.capture.halves hnone hht hidx
    rw [pollCapture_complete hdone]
    refine .closing ⟨?_, h.params, by rw [hhalves], .stopping rfl hdone ?_ h.reports⟩
    · rw [hhalves]
      exact h.image
    · rw [hhalves]
      exact h.pages
  | false =>
    cases hready : s.capstat with
    | none =>
      rw [pollCapture_none hdone hready]
      exact .draining (.check k hseq h)
    | firstHalfReady =>
      have hne : s.capstat ≠ .none := by simp [hready]
      obtain ⟨hpub, -⟩ := h.capture.published_ready hne
      have heven : k % 2 = 0 := readyOf_eq_first (hpub.symm.trans hready)
      rw [pollCapture_firstHalfReady hdone hready]
      exact .draining (.erase k rfl hne (halfOf_even heven).symm heven
        { h with capture := h.capture.congr ⟨rfl, rfl, rfl, rfl⟩ })
    | secondHalfReady =>
      have hne : s.capstat ≠ .none := by simp [hready]
      obtain ⟨hpub, -⟩ := h.capture.published_ready hne
      have hodd : k % 2 = 1 := readyOf_eq_second (hpub.symm.trans hready)
      have hops : opsOf s0.params.appBase.toNat k =
          opsOf s0.params.appBase.toNat k ++ eraseOps s0.params.appBase.toNat k := by
        rw [eraseOps, if_neg (by omega), List.append_nil]
      rw [pollCapture_secondHalfReady hdone hready, hops]
      exact .draining (.write k rfl hne (halfOf_odd hodd).symm
        { h with
          capture := h.capture.congr ⟨rfl, rfl, rfl, rfl⟩
          image := pageHalves_odd hodd ▸ h.image })

/-- The erase makes room for the two halves of a page. -/
theorem Taking.eraseStep (h : Taking s0 d k k k (pageHalves k) s) (hready : s.capstat ≠ .none)
    (hlatch : s.latch = halfOf k) (heven : k % 2 = 0) :
    InSession s0 d (opsOf s0.params.appBase.toNat k ++ [.erase s.curAddr.toNat])
      (eraseAtCursor s) := by
  obtain ⟨hhere, hnext⟩ := pageHalves_even heven
  obtain ⟨-, hres⟩ | ⟨-, -, hres⟩ | ⟨-, hin, hres⟩ := eraseAtCursor_cases s <;> rw [hres]
  · exact .doomed (.faulted rfl)
  · exact .doomed (.faulted rfl)
  · have hops : [.erase s.curAddr.toNat] = eraseOps s0.params.appBase.toNat k := by
      rw [eraseOps, if_pos heven, h.cursor]
    rw [hops]
    exact .draining (.write k rfl hready hlatch
      { h with
        capture := h.capture.congr ⟨rfl, rfl, rfl, rfl⟩
        image := hnext ▸ h.image.erase hi.bounds.flash_wf h.cursor h.params hhere hin })

/-- The burst writes the half that the buffer holds. -/
theorem Taking.writeStep (h : Taking s0 d k k k (pageHalves (k + 1)) s) (hready : s.capstat ≠ .none)
    (hlatch : s.latch = halfOf k) :
    InSession s0 d (opsOf s0.params.appBase.toNat k ++ eraseOps s0.params.appBase.toNat k ++
      [.write s.curAddr.toNat s.latch]) (writeAtCursor s) := by
  obtain ⟨-, hres⟩ | ⟨-, -, hres⟩ | ⟨-, hin, hres⟩ := writeAtCursor_cases s <;> rw [hres]
  · exact .doomed (.faulted rfl)
  · exact .doomed (.faulted rfl)
  · have hroom : k + 1 ≤ pageHalves (k + 1) := by
      unfold pageHalves
      omega
    rw [hlatch, h.cursor, ← opsOf_succ, ← hlatch]
    exact .draining (.advance k rfl hready hlatch
      { h with
        capture := h.capture.congr ⟨rfl, rfl, rfl, rfl⟩
        image := h.image.write hi.bounds.flash_wf h.cursor hroom hlatch hin
          (h.capture.half hready) })

theorem Taking.advanceStep (h : Taking s0 d k k (k + 1) (pageHalves (k + 1)) s)
    (hseq : s.seq = .pAdvance) (hready : s.capstat ≠ .none) (hlatch : s.latch = halfOf k) :
    Draining s0 d (opsOf s0.params.appBase.toNat (k + 1)) (advanceCursor s) := by
  obtain ⟨-, hin⟩ := hi.cursor.advance_fits hseq
  have hcursor : (s.curAddr + 128#32).toNat = s0.params.appBase.toNat + 128 * (k + 1) := by
    rw [toNat_add_half hin, h.cursor]
    omega
  have hpages : (if s.latch = .second then s.curPages + 1 else s.curPages) = (k + 1) / 2 := by
    rw [hlatch, h.pages, pages_succ]
  exact .clear k rfl hready
    { h with
      capture := h.capture.congr ⟨rfl, rfl, rfl, rfl⟩
      cursor := hcursor
      pages := hpages }

end

/-- Every step of a session that captures. -/
theorem Draining.step {s0 s : State} {d : List Byte} {ops : List FlashOp}
    (h : Draining s0 d ops s) (hi : s.Inv) (hclean : cleanStep .step s = true)
    (hrun : s.halted = false) :
    InSession s0 d (ops ++ flashOps .step s) (effect .step s) := by
  rw [effect]
  cases h with
  | check k hseq htaking =>
    rw [flashOps_other (by simp [hseq]) (by simp [hseq]), List.append_nil, hseq]
    exact htaking.check hi hclean hrun hseq
  | erase k hseq hready hlatch heven htaking =>
    rw [flashOps_erase hrun hseq, hseq]
    exact htaking.eraseStep hi hready hlatch heven
  | write k hseq hready hlatch htaking =>
    rw [flashOps_write hrun hseq, hseq]
    exact htaking.writeStep hi hready hlatch
  | advance k hseq hready hlatch htaking =>
    rw [flashOps_other (by simp [hseq]) (by simp [hseq]), List.append_nil, hseq]
    exact .draining (htaking.advanceStep hi hseq hready hlatch)
  | clear k hseq hready htaking =>
    rw [flashOps_other (by simp [hseq]) (by simp [hseq]), List.append_nil, hseq]
    exact .draining (.check (k + 1) rfl
      { htaking with capture := htaking.capture.clear hready rfl rfl rfl rfl })

/-! ### A session that closes -/

/-- With the channel and the idle interrupt off, nothing but the main context moves a session. -/
theorem Kind.untouched {s : State} {e : RunStep} (h : Kind s e) (he : e ≠ .step)
    (hch : s.dmaEn = false) (hie : s.idleIe = false) :
    storedBytes e s = [] ∧ Untouched s (effect e s) := by
  cases h with
  | main => exact absurd rfl he
  | store b _ hon | half _ hon | full _ hon | silence hon => simp [hch, hie] at hon
  | quiet e _ hstored hsame => exact ⟨hstored, hsame⟩

/-- Past the stop of the capture the channel and the idle interrupt are off. -/
theorem closing_off {s : State} (hi : s.Inv)
    (hseq : s.seq ∈ [.eReport, .eRewind, .eClear, .eFallback, .cEnter]) :
    s.dmaEn = false ∧ s.idleIe = false := by
  have hfacts : s.seq ≠ .faulted ∧ s.seq ≠ .cRecv ∧ captureSeq s.seq = false := by
    generalize s.seq = q at hseq
    revert q
    decide
  obtain ⟨hfaulted, hrecv, hcap⟩ := hfacts
  exact ⟨(dmaEn_eq hi.control hfaulted).trans hcap, idleIe_off hi.control hrecv hcap hfaulted⟩

/-- With the silence counted, no byte may follow and `MSGDONE` stays. -/
theorem Kind.complete {s : State} (hi : s.Inv) {e : RunStep} (h : Kind s e) (he : e ≠ .step)
    (hclean : cleanStep e s = true) (hdone : s.msgDone = true) :
    storedBytes e s = [] ∧ (effect e s).msgDone = true := by
  cases h with
  | main => exact absurd rfl he
  | store b =>
    obtain ⟨-, -, -, -, hbefore⟩ := (cleanStep_iff (.rx b) s).mp hclean
    exact absurd ((hbefore b rfl).symm.trans hdone) (by decide)
  | half | full => exact ⟨rfl, hdone⟩
  | silence hie => exact absurd ((hi.control.idle_waits hie).symm.trans hdone) (by decide)
  | quiet e _ hstored hsame => exact ⟨hstored, hsame.msgDone.trans hdone⟩

theorem Ending.event {s0 s : State} {h : Nat} (hend : Ending s0 h s) (hi : s.Inv) {e : RunStep}
    (hkind : Kind s e) (he : e ≠ .step) (hclean : cleanStep e s = true) :
    storedBytes e s = [] ∧ Ending s0 h (effect e s) := by
  have hsame := hkind.progress he
  have hoff : s.seq ∈ [.eReport, .eRewind, .eClear, .eFallback, .cEnter] →
      storedBytes e s = [] ∧ Untouched s (effect e s) := fun hseq => by
    obtain ⟨hch, hie⟩ := closing_off hi hseq
    exact hkind.untouched he hch hie
  cases hend with
  | stopping hseq hdone hpages hreports =>
    obtain ⟨hstored, hdone'⟩ := hkind.complete hi he hclean hdone
    exact ⟨hstored, .stopping (hsame.seq.trans hseq) hdone' (hsame.curPages.trans hpages)
      (hsame.reports.trans hreports)⟩
  | reporting hseq hpages hreports =>
    exact ⟨(hoff (by simp [hseq])).1, .reporting (hsame.seq.trans hseq)
      (hsame.curPages.trans hpages) (hsame.reports.trans hreports)⟩
  | rewinding hseq hpages hreports =>
    exact ⟨(hoff (by simp [hseq])).1, .rewinding (hsame.seq.trans hseq)
      (hsame.curPages.trans hpages) (hsame.reports.trans hreports)⟩
  | clearing hseq hpages hreports hcur =>
    exact ⟨(hoff (by simp [hseq])).1, .clearing (hsame.seq.trans hseq)
      (hsame.curPages.trans hpages) (hsame.reports.trans hreports) (hsame.curAddr.trans hcur)⟩
  | leaving hseq hrested =>
    obtain ⟨hstored, hun⟩ := hoff (by obtain h | h := hseq <;> simp [h])
    refine ⟨hstored, .leaving (hsame.seq ▸ hseq) ?_⟩
    exact {
      reports := hsame.reports.trans hrested.reports
      curPages := hsame.curPages.trans hrested.curPages
      curAddr := hsame.curAddr.trans hrested.curAddr
      capstat := hun.capture.capstat.trans hrested.capstat
      msgDone := hun.msgDone.trans hrested.msgDone
      buf := fun k => (bufByte_congr hun.capture.buf k).trans (hrested.buf k) }

theorem Closing.event {s0 s : State} {d : List Byte} {ops : List FlashOp}
    (h : Closing s0 d ops s) (hi : s.Inv) {e : RunStep} (hkind : Kind s e) (he : e ≠ .step)
    (hclean : cleanStep e s = true) : Closing s0 (d ++ storedBytes e s) ops (effect e s) := by
  have hsame := hkind.progress he
  obtain ⟨hstored, hend⟩ := h.ending.event hi hkind he hclean
  rw [hstored, List.append_nil]
  exact ⟨hsame.flash ▸ h.image, hsame.params.trans h.params, h.ops_eq, hend⟩

theorem Ending.seq_ne_flash {s0 s : State} {h : Nat} (hend : Ending s0 h s) :
    s.seq ≠ .pErase ∧ s.seq ≠ .pWrite := by
  cases hend with
  | stopping hseq | reporting hseq | rewinding hseq | clearing hseq => simp [hseq]
  | leaving hseq => obtain h | h := hseq <;> simp [h]

/-- The five closing steps, one after another (R217 to R221). -/
theorem Closing.step {s0 s : State} {d : List Byte} {ops : List FlashOp} (h : Closing s0 d ops s)
    (hclean : cleanStep .step s = true) :
    Closing s0 d (ops ++ flashOps .step s) (effect .step s) := by
  obtain ⟨himage, hparams, hops, hend⟩ := h
  obtain ⟨herase, hwrite⟩ := hend.seq_ne_flash
  have hnop : flashOps .step s = [] := flashOps_other herase hwrite
  rw [hnop, List.append_nil, effect]
  cases hend with
  | stopping hseq hdone hpages hreports =>
    rw [hseq, stepEffect]
    exact ⟨himage, hparams, hops, .reporting rfl hpages hreports⟩
  | reporting hseq hpages hreports =>
    rw [hseq, stepEffect, hreports, hpages]
    exact ⟨himage, hparams, hops, .rewinding rfl rfl rfl⟩
  | rewinding hseq hpages hreports =>
    rw [hseq, stepEffect]
    exact ⟨himage, hparams, hops,
      .clearing rfl hpages hreports (congrArg Params.appBase hparams)⟩
  | clearing hseq hpages hreports hcur =>
    rw [hseq, stepEffect]
    exact ⟨himage, hparams, hops, .leaving (.inl rfl)
      ⟨hreports, hpages, hcur, rfl, rfl,
        fun k => (bufByte_congr rfl k).trans (bufByte_clearBuffer s k)⟩⟩
  | leaving hseq hrested =>
    obtain hseq | hseq := hseq
    · rw [hseq, stepEffect]
      exact ⟨himage, hparams, hops, .leaving (.inr rfl) { hrested with }⟩
    · have hsess := cleanStep_session hclean
      rw [hseq] at hsess
      cases hsess

/-! ### A whole session -/

/-- Every step of a clean session goes from stage to stage. -/
theorem InSession.effect {s0 s : State} {d : List Byte} {ops : List FlashOp}
    (h : InSession s0 d ops s) (hi : s.Inv) {e : RunStep} (hclean : cleanStep e s = true)
    (hen : enabled e s = true) :
    InSession s0 (d ++ storedBytes e s) (ops ++ flashOps e s) (effect e s) := by
  by_cases he : e = .step
  · subst he
    obtain ⟨hrun, -⟩ := (frozen_eq_false s).mp (by simpa [enabled] using hen)
    rw [storedBytes_step, List.append_nil]
    cases h with
    | draining h => exact h.step hi hclean hrun
    | closing h => exact .closing (h.step hclean)
    | doomed h => exact .doomed (h.step hclean hrun)
  · have hkind := kind_of_clean hi hclean hen
    rw [flashOps_of_ne_step he, List.append_nil]
    cases h with
    | draining h => exact h.event hi hkind he hclean hen
    | closing h => exact .closing (h.event hi hkind he hclean)
    | doomed h => exact .doomed (h.event hkind he hclean hen)

theorem InSession.run {s0 : State} {sch : List RunStep} {s : State} {d : List Byte}
    {ops : List FlashOp} {tr : SessionTrace} (h : InSession s0 d ops s) (hi : s.Inv)
    (hrun : cleanSession sch s = some tr) :
    InSession s0 (d ++ tr.stored) (ops ++ tr.ops) tr.final ∧ tr.final.Inv := by
  induction sch generalizing s d ops tr with
  | nil =>
    cases hrun
    rw [List.append_nil, List.append_nil]
    exact ⟨h, hi⟩
  | cons e rest ih =>
    obtain ⟨hclean, hen, tr', hrest, hfinal, hstored, hops⟩ := cleanSession_cons hrun
    rw [hfinal, hstored, hops, ← List.append_assoc, ← List.append_assoc]
    exact ih (h.effect hi hclean hen) (inv_effect hi hen) hrest

/-- The arming begins a session with nothing taken. -/
theorem taking_armSession (s : State) : Taking s [] 0 0 0 (pageHalves 0) (armSession s) := by
  rw [armSession_eq]
  have hcapture : Capturing [] 0 (armSession s) := by
    rw [armSession_eq]
    exact ⟨.inl rfl, by simp [published], Nat.le_refl 0, by simp, Nat.zero_le _,
      fun n _ hn => absurd hn (by simp)⟩
  rw [armSession_eq] at hcapture
  exact ⟨hcapture, image_start s, rfl, rfl, rfl, rfl⟩

theorem Draining.seq_ne {s0 s : State} {d : List Byte} {ops : List FlashOp}
    (h : Draining s0 d ops s) : s.seq ≠ .cEnter := by
  cases h with
  | check _ hseq | erase _ hseq | write _ hseq | advance _ hseq | clear _ hseq => simp [hseq]

theorem Doomed.seq_ne {s : State} (h : Doomed s) : s.seq ≠ .cEnter := by
  cases h with
  | missed hseq | misplaced hseq | faulted hseq => simp [hseq]

theorem Ending.rested {s0 s : State} {h : Nat} (hend : Ending s0 h s) (hseq : s.seq = .cEnter) :
    Rested s0 h s := by
  cases hend with
  | leaving _ hrested => exact hrested
  | stopping hother | reporting hother | rewinding hother | clearing hother =>
    simp [hseq] at hother

/-- At `C_ENTER` a session has closed. -/
theorem InSession.closed {s0 s : State} {d : List Byte} {ops : List FlashOp}
    (h : InSession s0 d ops s) (hseq : s.seq = .cEnter) :
    Closing s0 d ops s ∧ Rested s0 (d.length / 128) s := by
  cases h with
  | draining h => exact absurd hseq h.seq_ne
  | closing h => exact ⟨h, h.ending.rested hseq⟩
  | doomed h => exact absurd hseq h.seq_ne

/-- A clean session that comes to its end has closed. -/
theorem cleanSession_closed {s : State} {sch : List RunStep} {tr : SessionTrace} (hi : s.Inv)
    (hseq : s.seq = .gArm) (hrun : cleanSession (.step :: sch) s = some tr)
    (hend : tr.final.seq = .cEnter) :
    Closing s tr.stored tr.ops tr.final ∧ Rested s (tr.stored.length / 128) tr.final ∧
      tr.final.Inv := by
  obtain ⟨-, hen, tr', hrest, hfinal, hstored, hops⟩ := cleanSession_cons hrun
  rw [storedBytes_step, List.nil_append] at hstored
  rw [flashOps_other (by simp [hseq]) (by simp [hseq]), List.nil_append] at hops
  have hinv := inv_effect hi hen
  have harm : effect .step s = armSession s := by rw [effect, hseq, stepEffect]
  rw [harm] at hrest hinv
  have hstart : InSession s [] [] (armSession s) :=
    .draining (.check 0 (by rw [armSession_eq]) (taking_armSession s))
  obtain ⟨hin, hinv'⟩ := hstart.run hinv hrest
  rw [List.nil_append, List.nil_append, ← hfinal, ← hstored, ← hops] at hin
  rw [← hfinal] at hinv'
  obtain ⟨hclosing, hrested⟩ := hin.closed hend
  exact ⟨hclosing, hrested, hinv'⟩

/-- What the pages of `h` halves hold. -/
theorem Image.pages_written {s0 : State} {d : List Byte} {h : Nat} {m : Memory}
    (himage : Image s0 d h (pageHalves h) m) :
    (∀ n, n < 128 * h → ∀ hn : n < d.length, m.read (s0.params.appBase.toNat + n) = d[n]) ∧
    (h % 2 = 1 → ∀ k, k < 128 →
      m.read (s0.params.appBase.toNat + 128 * h + k) = s0.params.erasedByte) ∧
    (∀ a, ¬ (s0.params.appBase.toNat ≤ a ∧
      a < s0.params.appBase.toNat + 256 * ((h + 1) / 2)) → m.read a = s0.flash.read a) := by
  have hpages : 128 * pageHalves h = 256 * ((h + 1) / 2) := by
    unfold pageHalves
    omega
  refine ⟨fun n hn hlt => ?_, fun hodd k hk => ?_, fun a ha => himage.kept a (hpages ▸ ha)⟩
  · have hread := himage.written n hn
    rw [List.getElem?_eq_getElem hlt] at hread
    exact (Option.some.inj hread).symm
  · rw [Nat.add_assoc]
    exact himage.erased (128 * h + k) (by omega) (by omega)

/-- Settles O60: by induction over the schedule the session stays in one of its stages; at `C_ENTER`
it has closed, with every whole half written. -/
theorem cleanSessionWritesImage : Obligations.CleanSessionWritesImage := by
  intro s sch tr hi hseq hrun hend base h f
  obtain ⟨hclosing, hrested, hinv⟩ := cleanSession_closed hi hseq hrun hend
  obtain ⟨himage, -, hops, -⟩ := hclosing
  obtain ⟨hwritten, herased, hkept⟩ := himage.pages_written
  obtain ⟨hch, -⟩ := closing_off hinv (by simp [hend])
  exact ⟨fun n hn => hwritten n hn _, hops, herased, hkept, hrested.reports, hrested.curAddr,
    hrested.curPages, hrested.capstat, hrested.msgDone, hrested.buf, hch,
    hinv.control.dma_together.trans hch⟩

end Sys2Proof.Proofs.CleanSession
end
